-- ==== Sys2Proof/Word.lean ====
section
/-! DEFINITION. The widths the spec names (00_scope.md rule R8, 30_encoding.md rules R50 and R55). -/

namespace Sys2Proof

/-- One byte on the wire (20_memory.md rule R33). -/
abbrev Byte := BitVec 8

/-- A register address, 0x00 to 0x7F (20_memory.md rule R30). -/
abbrev Addr := BitVec 7

/-- The 11-bit logical content of a register; masks and aligned field values have the same width
(30_encoding.md rule R50). -/
abbrev Payload := BitVec 11

/-- The 16-bit frame of one bus transaction (30_encoding.md rule R50). -/
abbrev Frame := BitVec 16

/-- The 48-bit command word (30_encoding.md rule R55). -/
abbrev Command := BitVec 48

/-- The operands of format F and the RESULT port (30_encoding.md rules R57 and R62). -/
abbrev Word16 := BitVec 16

end Sys2Proof
end

