-- ==== Sys2Proof/Config.lean ====
section
/-! DEFINITION. The block's parameters (00_scope.md rule R4, 10_state.md rule R11): the record that State
carries, and the constants without a body that stand for what the spec leaves OPEN. -/

namespace Sys2Proof

/-- PHYS_FMT (00_scope.md rule R4): the number format of the PHYS port. A value of the format is held as the
rational it denotes (log 8). -/
inductive PhysFmt where
  /-- PHYS_FMT = ℚ: `rnd` is the identity (43_field_getters.md rule R171). -/
  | exact
  /-- Any other format, named by an index; its rounding function is `Config.roundTo fmt`. -/
  | rounded (fmt : Nat)
deriving DecidableEq, Repr, Inhabited

/-- The configuration record of 10_state.md rule R11. No operation writes it. -/
structure Params where
  /-- DEVADDR, the bus address of the device. -/
  devAddr : BitVec 7
  /-- DELAY, the settling delay, in milliseconds. -/
  delayMs : Rat
  /-- CRC_POLY, the generator of every register frame. -/
  crcPoly : BitVec 4
  /-- GAIN_TABLE, the 96 master gain multipliers. -/
  gainTable : Vector Rat 96
  /-- FGAIN_STEP, fine gain per code. -/
  fgainStep : Rat
  /-- OFFS_STEP, offset fraction per code. -/
  offsStep : Rat
  /-- BIAS_UNIT, current bias unit in microamps. -/
  biasUnit : Rat
  /-- TXF_STEP, TX frequency per code in hertz. -/
  txfStep : Rat
  /-- PHYS_FMT, the format of a physical result. -/
  physFmt : PhysFmt
deriving DecidableEq, Repr

/-- SHADOW_OFS, fixed at 0x40 (00_scope.md rule R4). -/
def shadowOfs : Addr := 0x40#7

/-- MARKER, fixed at 0b11 (00_scope.md rule R4). -/
def marker : BitVec 2 := 0b11#2

/-- DEVADDR is OPEN (00_scope.md rule R4); free value, log 6. -/
opaque Config.devAddr : BitVec 7

/-- PHYS_FMT is OPEN (00_scope.md rule R4, D16); free value, log 8. -/
opaque Config.physFmt : PhysFmt

/-- `rnd` of a format other than ℚ (00_scope.md rule R4); free value, log 8. -/
opaque Config.roundTo : Nat → Rat → Rat

/-- What `crc word 0 filler` is: 40_crc.md rule R89 (a) gives it no value; free value, log 9. -/
opaque Config.crcNoValue : Nat → Nat → Nat

/-- What the bit-serial form is with polynomial 0: 40_crc.md rule R92 speaks of polynomials of at least 1 only;
free value, log 9. -/
opaque Config.crcSerialNoValue : Nat → Nat → Nat

/-- The free data behind GAIN_TABLE (log 7): step `i` of the table multiplies entry `i` by
`1 + (a + 1) / (b + 1)` where `(a, b) = Config.gainStep i`. -/
opaque Config.gainStep : Nat → Nat × Nat

/-- The ratio of GAIN_TABLE's entry `i + 1` to its entry `i`: a rational above 1, otherwise free. -/
def Config.gainRatio (i : Nat) : Rat :=
  1 + (((Config.gainStep i).1 + 1 : Nat) : Rat) / (((Config.gainStep i).2 + 1 : Nat) : Rat)

/-- Entry `50 + k` of GAIN_TABLE, from entry 50 = 349/20 (43_field_getters.md rule R163 (c)) upwards. -/
def Config.gainUp : Nat → Rat
  | 0 => 349 / 20
  | k + 1 => Config.gainUp k * Config.gainRatio (50 + k)

/-- Entry `50 - k` of GAIN_TABLE, from entry 50 = 349/20 downwards. -/
def Config.gainDown : Nat → Rat
  | 0 => 349 / 20
  | k + 1 => Config.gainDown k / Config.gainRatio (49 - k)

/-- GAIN_TABLE (43_field_getters.md rule R163): every table of 96 positive rationals with properties (a) to (c)
is this one for some `Config.gainStep`, and nothing else is known of it. -/
def Config.gainTable : Vector Rat 96 :=
  Vector.ofFn fun i => if i.val < 50 then Config.gainDown (50 - i.val) else Config.gainUp (i.val - 50)

/-- The parameter values of an instance that takes every default of 00_scope.md rule R4 and leaves every OPEN
parameter without one free. -/
def Config.params : Params where
  devAddr := Config.devAddr
  delayMs := 10
  crcPoly := 0b1011#4
  gainTable := Config.gainTable
  fgainStep := 1 / 800
  offsStep := 3 / 200000
  biasUnit := 1 / 2
  txfStep := 20000
  physFmt := Config.physFmt

/-- What 00_scope.md rule R4 and 43_field_getters.md rule R163 require of the parameters: CRC_POLY has bit
length 4; GAIN_TABLE is positive, strictly increasing and holds 349/20 at index 50. -/
abbrev Params.wf (p : Params) : Prop :=
  p.crcPoly.getLsbD 3 = true ∧
  (∀ i : Fin 96, 0 < p.gainTable[i]) ∧
  (∀ i : Fin 95, p.gainTable[i.val] < p.gainTable[i.val + 1]) ∧
  p.gainTable[50] = 349 / 20

end Sys2Proof
end

