-- ==== Sys2Proof/Syntax.lean ====
section
/-! DEFINITION. The abstract operations: one constructor for each row of spec/opcode_table.json
(30_encoding.md rule R59), with its operands in the source's order (rule R63) at the widths of the command
word (rules R56 to R58). -/

namespace Sys2Proof

inductive Instr where
  /-- RDREG A (41_regcodec.md rule R100). -/
  | rdreg (a : Addr)
  /-- WRREG A, V (41_regcodec.md rule R101). -/
  | wrreg (a : Addr) (v : Payload)
  /-- RDMSK A, M (41_regcodec.md rule R102). -/
  | rdmsk (a : Addr) (m : Payload)
  /-- WRMSK A, V, M (41_regcodec.md rule R103). -/
  | wrmsk (a : Addr) (v m : Payload)
  /-- CRC WORD, POLY, FILL (40_crc.md rule R91). -/
  | crc (word : BitVec 24) (poly fill : BitVec 8)
  /-- SET_VDD V (42_field_setters.md rule R122). -/
  | setVdd (v : Word16)
  /-- SET_OUTMODE V (42_field_setters.md rule R123). -/
  | setOutmode (v : Word16)
  /-- SET_AGC V (42_field_setters.md rule R124). -/
  | setAgc (v : Word16)
  /-- SET_GAIN V (42_field_setters.md rule R125). -/
  | setGain (v : Word16)
  /-- SET_BOOST V (42_field_setters.md rule R126). -/
  | setBoost (v : Word16)
  /-- SET_FGAIN1 V (42_field_setters.md rule R127). -/
  | setFgain1 (v : Word16)
  /-- SET_FGAIN2 V (42_field_setters.md rule R128). -/
  | setFgain2 (v : Word16)
  /-- SET_OFFS1 S, MAG (42_field_setters.md rule R129). -/
  | setOffs1 (sign mag : Word16)
  /-- SET_OFFS2 S, MAG (42_field_setters.md rule R130). -/
  | setOffs2 (sign mag : Word16)
  /-- SET_BIAS V (42_field_setters.md rule R131). -/
  | setBias (v : Word16)
  /-- SET_SUBADDR V (42_field_setters.md rule R132). -/
  | setSubaddr (v : Word16)
  /-- GET_VDD (43_field_getters.md rule R151). -/
  | getVdd
  /-- GET_OUTMODE (43_field_getters.md rule R152). -/
  | getOutmode
  /-- GET_AGC (43_field_getters.md rule R153). -/
  | getAgc
  /-- GET_GAIN (43_field_getters.md rule R154). -/
  | getGain
  /-- GET_BOOST (43_field_getters.md rule R155). -/
  | getBoost
  /-- GET_FGAIN1 (43_field_getters.md rule R156). -/
  | getFgain1
  /-- GET_FGAIN2 (43_field_getters.md rule R157). -/
  | getFgain2
  /-- GET_OFFS1 (43_field_getters.md rule R158). -/
  | getOffs1
  /-- GET_OFFS2 (43_field_getters.md rule R159). -/
  | getOffs2
  /-- GET_BIAS (43_field_getters.md rule R160). -/
  | getBias
  /-- GET_SUBADDR (43_field_getters.md rule R161). -/
  | getSubaddr
  /-- GET_TXFREQ (43_field_getters.md rule R162). -/
  | getTxfreq
  /-- GETP_GAIN (43_field_getters.md rule R164). -/
  | getpGain
  /-- GETP_FGAIN1 (43_field_getters.md rule R165). -/
  | getpFgain1
  /-- GETP_FGAIN2 (43_field_getters.md rule R166). -/
  | getpFgain2
  /-- GETP_OFFS1 (43_field_getters.md rule R167). -/
  | getpOffs1
  /-- GETP_OFFS2 (43_field_getters.md rule R168). -/
  | getpOffs2
  /-- GETP_BIAS (43_field_getters.md rule R169). -/
  | getpBias
  /-- GETP_TXFREQ (43_field_getters.md rule R170). -/
  | getpTxfreq
deriving DecidableEq, Repr

end Sys2Proof
end

