-- ==== Sys2Proof/WellFormed.lean ====
section
/-! DEFINITION. Which operations have a command word: the two value conditions of 30_encoding.md rule R60
(c) and (d). Every other operand value of the types of Sys2Proof.Instr is encodable. -/

namespace Sys2Proof

/-- An operation that some legal command word encodes: RDMSK needs a mask that is not zero (rule R60 (c)),
CRC a polynomial that is not zero (rule R60 (d)). -/
def Instr.wf : Instr → Bool
  | .rdreg _ => true
  | .wrreg _ _ => true
  | .rdmsk _ m => m != 0#11
  | .wrmsk _ _ _ => true
  | .crc _ poly _ => poly != 0#8
  | .setVdd _ => true
  | .setOutmode _ => true
  | .setAgc _ => true
  | .setGain _ => true
  | .setBoost _ => true
  | .setFgain1 _ => true
  | .setFgain2 _ => true
  | .setOffs1 _ _ => true
  | .setOffs2 _ _ => true
  | .setBias _ => true
  | .setSubaddr _ => true
  | .getVdd => true
  | .getOutmode => true
  | .getAgc => true
  | .getGain => true
  | .getBoost => true
  | .getFgain1 => true
  | .getFgain2 => true
  | .getOffs1 => true
  | .getOffs2 => true
  | .getBias => true
  | .getSubaddr => true
  | .getTxfreq => true
  | .getpGain => true
  | .getpFgain1 => true
  | .getpFgain2 => true
  | .getpOffs1 => true
  | .getpOffs2 => true
  | .getpBias => true
  | .getpTxfreq => true

end Sys2Proof
end

