-- ==== Sys2Proof/Decode.lean ====
section
/-! DEFINITION. The command-word decoder and encoder (30_encoding.md rules R55 to R60, R65, R66). -/

namespace Sys2Proof

/-- Why a command word is illegal: (a), (b), (c) and (d) of 30_encoding.md rule R60. -/
inductive DecodeError where
  /-- (a): the top byte is none of the 35 opcodes of rule R59. -/
  | unknownOpcode
  /-- (b): a bit that rule R56 or rule R57 says must be zero is one. -/
  | reservedBits
  /-- (c): RDMSK with a mask of zero. -/
  | zeroMask
  /-- (d): CRC with a polynomial of zero. -/
  | zeroPoly
deriving DecidableEq, Repr

/-- Bits 47 to 40, the opcode (rule R55). -/
def Command.op (w : Command) : BitVec 8 := w.extractLsb' 40 8

/-- Bits 38 to 32, the register address of format R (rule R56). -/
def Command.addr (w : Command) : Addr := w.extractLsb' 32 7

/-- Bits 26 to 16, the value of format R (rule R56). -/
def Command.value (w : Command) : Payload := w.extractLsb' 16 11

/-- Bits 10 to 0, the mask of format R (rule R56). -/
def Command.mask (w : Command) : Payload := w.extractLsb' 0 11

/-- Bits 39, 31 to 27 and 15 to 11 are zero (rule R56). -/
def Command.reservedClearR (w : Command) : Bool :=
  w.extractLsb' 39 1 == 0#1 && w.extractLsb' 27 5 == 0#5 && w.extractLsb' 11 5 == 0#5

/-- Bits 31 to 16, the first operand of format F (rule R57). -/
def Command.first (w : Command) : Word16 := w.extractLsb' 16 16

/-- Bits 15 to 0, the second operand of format F (rule R57). -/
def Command.second (w : Command) : Word16 := w.extractLsb' 0 16

/-- Bits 39 to 32 are zero (rule R57). -/
def Command.reservedClearF (w : Command) : Bool := w.extractLsb' 32 8 == 0#8

/-- Bits 39 to 32, the polynomial of format C (rule R58). -/
def Command.poly (w : Command) : BitVec 8 := w.extractLsb' 32 8

/-- Bits 31 to 8, the word of format C (rule R58). -/
def Command.word (w : Command) : BitVec 24 := w.extractLsb' 8 24

/-- Bits 7 to 0, the filler of format C (rule R58). -/
def Command.fill (w : Command) : BitVec 8 := w.extractLsb' 0 8

/-- `i`, if the bits that must be zero are (rule R60 (b)). -/
def needZero (zero : Bool) (i : Instr) : Except DecodeError Instr :=
  if zero then .ok i else .error .reservedBits

/-- A setter of one operand: bits 39 to 32 and the second operand must be zero (rule R57). -/
def decodeSetter (w : Command) (mk : Word16 → Instr) : Except DecodeError Instr :=
  needZero (w.reservedClearF && w.second == 0#16) (mk w.first)

/-- An offset setter: the second operand is the sign, the first the magnitude (rule R57). -/
def decodeOffset (w : Command) (mk : Word16 → Word16 → Instr) : Except DecodeError Instr :=
  needZero w.reservedClearF (mk w.second w.first)

/-- A getter: bits 39 to 0 must be zero (rule R57). -/
def decodeGetter (w : Command) (i : Instr) : Except DecodeError Instr :=
  needZero (w.reservedClearF && w.first == 0#16 && w.second == 0#16) i

/-- The decoder, in the order of rule R66: the opcode, then the bits that must be zero, then the two value
conditions. Total on all 2^48 words. -/
def decode (w : Command) : Except DecodeError Instr :=
  match w.op.toNat with
  | 0x01 => needZero (w.reservedClearR && w.value == 0#11 && w.mask == 0#11) (.rdreg w.addr)
  | 0x02 => needZero (w.reservedClearR && w.mask == 0#11) (.wrreg w.addr w.value)
  | 0x03 => 
    if w.reservedClearR && w.value == 0#11 then
      if w.mask = 0#11 then .error .zeroMask else .ok (.rdmsk w.addr w.mask)
    else .error .reservedBits
  | 0x04 => needZero w.reservedClearR (.wrmsk w.addr w.value w.mask)
  | 0x08 => if w.poly = 0#8 then .error .zeroPoly else .ok (.crc w.word w.poly w.fill)
  | 0x10 => decodeSetter w .setVdd
  | 0x11 => decodeSetter w .setOutmode
  | 0x12 => decodeSetter w .setAgc
  | 0x13 => decodeSetter w .setGain
  | 0x14 => decodeSetter w .setBoost
  | 0x15 => decodeSetter w .setFgain1
  | 0x16 => decodeSetter w .setFgain2
  | 0x17 => decodeOffset w .setOffs1
  | 0x18 => decodeOffset w .setOffs2
  | 0x19 => decodeSetter w .setBias
  | 0x1A => decodeSetter w .setSubaddr
  | 0x20 => decodeGetter w .getVdd
  | 0x21 => decodeGetter w .getOutmode
  | 0x22 => decodeGetter w .getAgc
  | 0x23 => decodeGetter w .getGain
  | 0x24 => decodeGetter w .getBoost
  | 0x25 => decodeGetter w .getFgain1
  | 0x26 => decodeGetter w .getFgain2
  | 0x27 => decodeGetter w .getOffs1
  | 0x28 => decodeGetter w .getOffs2
  | 0x29 => decodeGetter w .getBias
  | 0x2A => decodeGetter w .getSubaddr
  | 0x2B => decodeGetter w .getTxfreq
  | 0x33 => decodeGetter w .getpGain
  | 0x35 => decodeGetter w .getpFgain1
  | 0x36 => decodeGetter w .getpFgain2
  | 0x37 => decodeGetter w .getpOffs1
  | 0x38 => decodeGetter w .getpOffs2
  | 0x39 => decodeGetter w .getpBias
  | 0x3B => decodeGetter w .getpTxfreq
  | _ => .error .unknownOpcode

/-- Format R assembled (rule R56). -/
def encodeR (op : BitVec 8) (a : Addr) (v m : Payload) : Command :=
  op ++ (0#1 ++ (a ++ (0#5 ++ (v ++ (0#5 ++ m)))))

/-- Format F assembled (rule R57). -/
def encodeF (op : BitVec 8) (first second : Word16) : Command :=
  op ++ (0#8 ++ (first ++ second))

/-- Format C assembled (rule R58). -/
def encodeC (op poly : BitVec 8) (word : BitVec 24) (fill : BitVec 8) : Command :=
  op ++ (poly ++ (word ++ fill))

/-- The command word of an operation (rules R55 to R59). For an ill-formed operation it is a word that the
decoder refuses. -/
def encode : Instr → Command
  | .rdreg a => encodeR 0x01#8 a 0#11 0#11
  | .wrreg a v => encodeR 0x02#8 a v 0#11
  | .rdmsk a m => encodeR 0x03#8 a 0#11 m
  | .wrmsk a v m => encodeR 0x04#8 a v m
  | .crc word poly fill => encodeC 0x08#8 poly word fill
  | .setVdd v => encodeF 0x10#8 v 0#16
  | .setOutmode v => encodeF 0x11#8 v 0#16
  | .setAgc v => encodeF 0x12#8 v 0#16
  | .setGain v => encodeF 0x13#8 v 0#16
  | .setBoost v => encodeF 0x14#8 v 0#16
  | .setFgain1 v => encodeF 0x15#8 v 0#16
  | .setFgain2 v => encodeF 0x16#8 v 0#16
  | .setOffs1 sign mag => encodeF 0x17#8 mag sign
  | .setOffs2 sign mag => encodeF 0x18#8 mag sign
  | .setBias v => encodeF 0x19#8 v 0#16
  | .setSubaddr v => encodeF 0x1A#8 v 0#16
  | .getVdd => encodeF 0x20#8 0#16 0#16
  | .getOutmode => encodeF 0x21#8 0#16 0#16
  | .getAgc => encodeF 0x22#8 0#16 0#16
  | .getGain => encodeF 0x23#8 0#16 0#16
  | .getBoost => encodeF 0x24#8 0#16 0#16
  | .getFgain1 => encodeF 0x25#8 0#16 0#16
  | .getFgain2 => encodeF 0x26#8 0#16 0#16
  | .getOffs1 => encodeF 0x27#8 0#16 0#16
  | .getOffs2 => encodeF 0x28#8 0#16 0#16
  | .getBias => encodeF 0x29#8 0#16 0#16
  | .getSubaddr => encodeF 0x2A#8 0#16 0#16
  | .getTxfreq => encodeF 0x2B#8 0#16 0#16
  | .getpGain => encodeF 0x33#8 0#16 0#16
  | .getpFgain1 => encodeF 0x35#8 0#16 0#16
  | .getpFgain2 => encodeF 0x36#8 0#16 0#16
  | .getpOffs1 => encodeF 0x37#8 0#16 0#16
  | .getpOffs2 => encodeF 0x38#8 0#16 0#16
  | .getpBias => encodeF 0x39#8 0#16 0#16
  | .getpTxfreq => encodeF 0x3B#8 0#16 0#16

/-- Operands in decimal, separated by commas (30_encoding.md rule R63). -/
def assemblyLine (mnemonic : String) : List Nat → String
  | [] => mnemonic
  | x :: xs => xs.foldl (fun line y => line ++ ", " ++ toString y) (mnemonic ++ " " ++ toString x)

/-- The spec's one-line form of an operation, operands in the source's argument order (30_encoding.md rule R63). -/
def assembly : Instr → String
  | .rdreg a => assemblyLine "RDREG" [a.toNat]
  | .wrreg a v => assemblyLine "WRREG" [a.toNat, v.toNat]
  | .rdmsk a m => assemblyLine "RDMSK" [a.toNat, m.toNat]
  | .wrmsk a v m => assemblyLine "WRMSK" [a.toNat, v.toNat, m.toNat]
  | .crc word poly fill => assemblyLine "CRC" [word.toNat, poly.toNat, fill.toNat]
  | .setVdd v => assemblyLine "SET_VDD" [v.toNat]
  | .setOutmode v => assemblyLine "SET_OUTMODE" [v.toNat]
  | .setAgc v => assemblyLine "SET_AGC" [v.toNat]
  | .setGain v => assemblyLine "SET_GAIN" [v.toNat]
  | .setBoost v => assemblyLine "SET_BOOST" [v.toNat]
  | .setFgain1 v => assemblyLine "SET_FGAIN1" [v.toNat]
  | .setFgain2 v => assemblyLine "SET_FGAIN2" [v.toNat]
  | .setOffs1 sign mag => assemblyLine "SET_OFFS1" [sign.toNat, mag.toNat]
  | .setOffs2 sign mag => assemblyLine "SET_OFFS2" [sign.toNat, mag.toNat]
  | .setBias v => assemblyLine "SET_BIAS" [v.toNat]
  | .setSubaddr v => assemblyLine "SET_SUBADDR" [v.toNat]
  | .getVdd => assemblyLine "GET_VDD" []
  | .getOutmode => assemblyLine "GET_OUTMODE" []
  | .getAgc => assemblyLine "GET_AGC" []
  | .getGain => assemblyLine "GET_GAIN" []
  | .getBoost => assemblyLine "GET_BOOST" []
  | .getFgain1 => assemblyLine "GET_FGAIN1" []
  | .getFgain2 => assemblyLine "GET_FGAIN2" []
  | .getOffs1 => assemblyLine "GET_OFFS1" []
  | .getOffs2 => assemblyLine "GET_OFFS2" []
  | .getBias => assemblyLine "GET_BIAS" []
  | .getSubaddr => assemblyLine "GET_SUBADDR" []
  | .getTxfreq => assemblyLine "GET_TXFREQ" []
  | .getpGain => assemblyLine "GETP_GAIN" []
  | .getpFgain1 => assemblyLine "GETP_FGAIN1" []
  | .getpFgain2 => assemblyLine "GETP_FGAIN2" []
  | .getpOffs1 => assemblyLine "GETP_OFFS1" []
  | .getpOffs2 => assemblyLine "GETP_OFFS2" []
  | .getpBias => assemblyLine "GETP_BIAS" []
  | .getpTxfreq => assemblyLine "GETP_TXFREQ" []

/-- What the decoder reads from the instruction whose bits are `w`, numbered as spec/opcode_table.json numbers
them: a command is one 48-bit word presented whole at the command port (rule R55), so the bits are the word;
those at and above `nbits` are zero. -/
def decodeTableWord (nbits w : Nat) : Option Instr :=
  match decode (BitVec.ofNat 48 (w % 2 ^ nbits)) with
  | .ok i => some i
  | .error _ => none

end Sys2Proof
end

