-- ==== Sys2Proof/Machine/State.lean ====
section
/-! DEFINITION. The machine's state as plain data (10_state.md; INVENTORY.md '## State'), and the reasons a step
can stop. -/

namespace Sys2Proof.Machine

/-- An opaque cause value that the transport gives with a fault (60_exceptions.md rule R193). The block copies it
and never looks at it. -/
structure Cause where
  token : Nat
deriving DecidableEq, Repr

/-- A trace event (10_state.md rule R18). -/
inductive Event where
  /-- `Rd(A, b0, b1)`: a read transaction that completed. -/
  | rd (a : Addr) (b0 b1 : Byte)
  /-- `RdFault(A, cause)`. -/
  | rdFault (a : Addr) (cause : Cause)
  /-- `Wr(A, b0, b1)`: a write transaction that completed. -/
  | wr (a : Addr) (b0 b1 : Byte)
  /-- `WrFault(A, b0, b1, cause)`. -/
  | wrFault (a : Addr) (b0 b1 : Byte) (cause : Cause)
  /-- `Dly`: one settling delay. -/
  | dly
deriving DecidableEq, Repr

/-- What the far end of the bus does in one coming transaction (20_memory.md rules R35, R42, R43): an input of
the machine, any value (log 2). -/
structure Reply where
  /-- Stores of other masters into REG that land before the transaction (10_state.md rule R21 (4)). -/
  others : List (Addr × Payload)
  /-- The two marker bits `x` the reference target draws for a read frame (rule R42). -/
  marker : BitVec 2
  /-- The bytes a read brings, where they are not those of the reference target (rules R35, R43). -/
  bytes : Option (Byte × Byte)
  /-- The cause, if the transaction fails (rule R32). -/
  fault : Option Cause
  /-- The payload REG[A] holds after a write, where it is not the one sent (a completed write) or the old one
  (a faulted write): 60_exceptions.md rule R202, U15, U19. -/
  stored : Option Payload
deriving DecidableEq, Repr

/-- The payloads the target holds, as (address, payload) cells with addresses strictly rising and no cell equal
to what an unlisted address reads as (`Memory.wf`). The unit is the 11-bit payload of one register, the
smallest the spec gives an address (20_memory.md rule R30). -/
abbrev Memory := List (Nat × Payload)

structure State where
  /-- The configuration (10_state.md rule R11). -/
  cfg : Params
  /-- An operation is running (10_state.md rule R13). -/
  busy : Bool
  /-- The position in the running operation, as the number of its events so far (rule R13, log 13). -/
  phase : Option Nat
  /-- The payload the read half of a masked write returned (rule R13). -/
  tmp : Option Payload
  /-- The frame being sent or just received (rule R13). -/
  frm : Option Frame
  /-- STATUS, or no value (10_state.md rule R12, log 4). -/
  status : Option (BitVec 3)
  /-- RESULT, or no value (rule R12). -/
  result : Option Word16
  /-- PHYS, or no value (rule R12). -/
  phys : Option Rat
  /-- TCAUSE, or no value (rule R12). -/
  tcause : Option Cause
  /-- The events since reset, oldest first (10_state.md rule R18). -/
  trace : List Event
  /-- REG, the target's registers (10_state.md rule R19). -/
  regs : Memory
  /-- What the bus will do in the coming transactions, the next one first (log 2). -/
  bus : List Reply
  /-- What the bus does in every transaction after those (log 2). -/
  busRest : Reply
  /-- The commands of the host's list from its next one on (10_state.md rule R15). -/
  cmds : List Command
  /-- The index of the next command in that list (rule R15). -/
  cmdIdx : Nat
  /-- The host has stopped presenting its list at a status that is not OK (rule R15). -/
  stopped : Bool
deriving DecidableEq, Repr

/-- No operation and no step of this machine faults: every error of the spec ends an operation with a status
and leaves the block idle (60_exceptions.md rules R198 and R199), so the type has no constructor. -/
inductive Fault where
deriving DecidableEq, Repr

/-- Why the model gives no next state. -/
inductive Refusal where
  /-- Raised by an arm of `exec` whose instruction has no meaning yet; safe. No arm raises it. -/
  | notModelled (mnemonic : String)
  /-- Raised by `step` alone, when a command is to be presented while an operation runs: the host never does
  this (10_state.md rule R21, U21), and no state between two steps is of this kind; safe. -/
  | commandWhileBusy
deriving DecidableEq, Repr

/-- The reference target with marker 0b11, no fault, no other master (20_memory.md rule R42). -/
def Reply.reference : Reply where
  others := []
  marker := 0b11#2
  bytes := none
  fault := none
  stored := none

/-- The machine right after reset (10_state.md rule R20, 70_reset_and_hazards.md rule R220): configuration at its
parameter values, idle, no response value, empty trace. The environment's part is the model's choice (logs 2,
3, 11). -/
def State.reset : State where
  cfg := Config.params
  busy := false
  phase := none
  tmp := none
  frm := none
  status := none
  result := none
  phys := none
  tcause := none
  trace := []
  regs := []
  bus := []
  busRest := Reply.reference
  cmds := []
  cmdIdx := 0
  stopped := false

end Sys2Proof.Machine
end

