-- ==== Sys2Proof/Machine/Flags.lean ====
section
/-! DEFINITION. The error kinds and the STATUS codes (30_encoding.md rule R62, 60_exceptions.md rule R190). The
block has no other flag (10_state.md rule R16). -/

namespace Sys2Proof.Machine

/-- What the pseudocode raises (60_exceptions.md rule R190). -/
inductive Raise where
  /-- `Integrity(A, F)`: a received frame is not valid (rule R191). -/
  | integrity (a : Addr) (f : Frame)
  /-- `Range()`: a setter's operand is outside its domain (rule R192). -/
  | range
  /-- `Transport(cause)`: a bus transaction failed (rule R193). -/
  | transport (cause : Cause)
  /-- `Inconsistent(code)`: GETP_GAIN read a code above 95 (rule R194). -/
  | inconsistent (code : Payload)
  /-- `Illegal()`: the command word is illegal (rule R195). -/
  | illegal
deriving DecidableEq, Repr

/-- STATUS of an operation that completes (rule R190). -/
def statusOk : BitVec 3 := 0#3

/-- STATUS of an operation that an error ends (rule R190). -/
def Raise.status : Raise → BitVec 3
  | .integrity _ _ => 1#3
  | .range => 2#3
  | .transport _ => 3#3
  | .inconsistent _ => 4#3
  | .illegal => 5#3

/-- What an error writes to TCAUSE: the transport's own value, unmodified, and nothing for the other kinds
(rules R190 and R193). -/
def Raise.cause : Raise → Option Cause
  | .transport c => some c
  | .integrity _ _ => none
  | .range => none
  | .inconsistent _ => none
  | .illegal => none

end Sys2Proof.Machine
end

