-- ==== Sys2Proof/Machine/Crc.lean ====
section
/-! DEFINITION. The CRC Engine (40_crc.md): polynomial division over natural numbers, its hardware module, and
the bit-serial form. -/

namespace Sys2Proof.Machine

/-- `bitlen(x)` (00_scope.md rule R5): 0 for 0, else the 1-indexed position of the highest set bit. -/
def bitlen (x : Nat) : Nat := if x = 0 then 0 else Nat.log2 x + 1

/-- `n = bitlen(polynomial) - 1`, the check width (40_crc.md rule R80), for polynomials of at least 1. -/
def checkWidth (poly : Nat) : Nat := bitlen poly - 1

/-- The working value the division starts from (40_crc.md rule R81). -/
def workValue (word poly filler : Nat) : Nat := (word <<< checkWidth poly) ||| filler

/-- One pass of the division loop (40_crc.md rule R82): the polynomial aligned to the highest set bit of `w`,
exclusive-ORed in. -/
def divPass (poly w : Nat) : Nat := w ^^^ (poly <<< (bitlen w - bitlen poly))

/-- The division loop of 40_crc.md rule R82, `while bitlen(W) > n`, for at most the given number of passes. -/
def divLoop (poly : Nat) : Nat → Nat → Nat
  | 0, w => w
  | fuel + 1, w => if checkWidth poly < bitlen w then divLoop poly fuel (divPass poly w) else w

/-- `crc(word, polynomial, filler)` (40_crc.md rules R80 to R83). `bitlen` of the working value is enough passes
(rule R84). A polynomial of 0 has no value (rule R89 (a), log 9). -/
def crc (word poly filler : Nat) : Nat :=
  if poly = 0 then Config.crcNoValue word filler
  else
    let w := workValue word poly filler
    divLoop poly (bitlen w) w &&& (2 ^ checkWidth poly - 1)

/-- The width of the output port `rem[PW-2:0]` of `crc_div`: `PW - 1`, and at least 1 (40_crc.md rule R90). -/
abbrev remWidth (pw : Nat) : Nat := pw - 2 + 1

/-- The module `crc_div` (40_crc.md rule R90), with parameters WW, PW and FW; the remainder is zero-extended to
its port. With polynomial 0 the output is unspecified (log 9). -/
def crcDiv (ww pw fw : Nat) (word : BitVec ww) (poly : BitVec pw) (fill : BitVec fw) : BitVec (remWidth pw) :=
  BitVec.ofNat (remWidth pw) (crc word.toNat poly.toNat fill.toNat)

/-- The loop of the bit-serial form (40_crc.md rule R92): the bits `i - 1` down to 0 of `w`, into the shift
register `r`. -/
def serialLoop (poly w : Nat) : Nat → Nat → Nat
  | 0, r => r
  | i + 1, r =>
    let r' := (r <<< 1) ||| ((w >>> i) &&& 1)
    serialLoop poly w i (if (r' >>> checkWidth poly) &&& 1 = 1 then r' ^^^ poly else r')

/-- The bit-serial form of the engine (40_crc.md rule R92). A polynomial of 0 has no value (log 9). -/
def crcSerial (word poly filler : Nat) : Nat :=
  if poly = 0 then Config.crcSerialNoValue word filler
  else
    let w := workValue word poly filler
    serialLoop poly w (bitlen w) 0

end Sys2Proof.Machine
end

