-- ==== Sys2Proof/Machine/Frame.lean ====
section
/-! DEFINITION. Frames: byte order, canonical CRC words, assembly, split and validity (20_memory.md rule R33,
30_encoding.md rules R50 to R54, 41_regcodec.md rules R104 and R105). -/

namespace Sys2Proof.Machine

/-- The bytes of a frame on the wire, bits 15 to 8 first (20_memory.md rule R33). -/
def frameBytes (f : Frame) : Byte × Byte := (f.extractLsb' 8 8, f.extractLsb' 0 8)

/-- The frame of two received bytes, the first in bits 15 to 8 (20_memory.md rule R33). -/
def frameOfBytes (bs : Byte × Byte) : Frame := bs.1 ++ bs.2

/-- The check code of a frame, bits 2 to 0 (30_encoding.md rule R52). -/
def frameCheck (f : Frame) : BitVec 3 := f.extractLsb' 0 3

/-- The payload of a frame, bits 15 to 5 (30_encoding.md rule R52). -/
def framePayload (f : Frame) : Payload := f.extractLsb' 5 11

/-- `canon(p)`, the read-side canonical CRC word (30_encoding.md rule R53): payload bits 10 to 3 at bits 15 to 8,
payload bits 2 to 0 at bits 2 to 0. -/
def canon (p : Payload) : BitVec 16 :=
  ((p &&& 0x7F8#11).setWidth 16 <<< 5) ||| (p &&& 0x007#11).setWidth 16

/-- `wrword(A, v)`, the write-side canonical CRC word (30_encoding.md rule R54): the address above the same
canonical word (41_regcodec.md rule R104). -/
def wrword (a : Addr) (v : Payload) : BitVec 23 :=
  ((a &&& 0x7F#7).setWidth 23 <<< 16) ||| (canon v).setWidth 23

/-- `crc(canon(p), CRC_POLY, fill)`, the read-side use of the engine (40_crc.md rule R90). -/
def readCheck (poly : BitVec 4) (p : Payload) (fill : BitVec 3) : BitVec 3 := crcDiv 16 4 3 (canon p) poly fill

/-- `crc(wrword(A, v), CRC_POLY, 0)`, the write-side use of the engine (40_crc.md rule R90). -/
def writeCheck (poly : BitVec 4) (a : Addr) (v : Payload) : BitVec 3 := crcDiv 23 4 3 (wrword a v) poly 0#3

/-- A frame from its payload, its two marker bits and its check code (30_encoding.md rule R50). -/
def assemble (p : Payload) (m : BitVec 2) (c : BitVec 3) : Frame :=
  (p.setWidth 16 <<< 5) ||| (m.setWidth 16 <<< 3) ||| c.setWidth 16

/-- The frame WRREG sends (30_encoding.md rule R51): marker 0b11, check code over address and payload. -/
def writeFrame (poly : BitVec 4) (a : Addr) (v : Payload) : Frame := assemble v marker (writeCheck poly a v)

/-- The frame the reference target answers a read with (20_memory.md rule R42). -/
def readFrame (poly : BitVec 4) (p : Payload) (x : BitVec 2) : Frame := assemble p x (readCheck poly p 0#3)

/-- A received frame is valid (41_regcodec.md rule R105): the remainder over its payload with its own check code
as the filler is zero. Bits 4 and 3 take no part (30_encoding.md rule R52). -/
def frameValid (poly : BitVec 4) (f : Frame) : Bool := readCheck poly (framePayload f) (frameCheck f) == 0#3

end Sys2Proof.Machine
end

