-- ==== Sys2Proof/Machine/Operands.lean ====
section
/-! DEFINITION. The field map and the operand transformations (30_encoding.md rules R61 and R65): address, mask,
shift, domain, and how a setter's operand becomes a field value. -/

namespace Sys2Proof.Machine

/-- The twelve fields of the field map (30_encoding.md rule R61), in the order of their index. -/
inductive Field where
  | vdd | outmode | agc | gain | boost | fgain1 | fgain2 | offs1 | offs2 | bias | subaddr | txfreq
deriving DecidableEq, Repr

/-- The field's index, the low nibble of its opcodes (30_encoding.md rules R59 and R61). -/
def Field.index : Field → BitVec 4
  | .vdd => 0x0#4
  | .outmode => 0x1#4
  | .agc => 0x2#4
  | .gain => 0x3#4
  | .boost => 0x4#4
  | .fgain1 => 0x5#4
  | .fgain2 => 0x6#4
  | .offs1 => 0x7#4
  | .offs2 => 0x8#4
  | .bias => 0x9#4
  | .subaddr => 0xA#4
  | .txfreq => 0xB#4

/-- `FA`, the primary register address (30_encoding.md rule R61, 20_memory.md rule R31). -/
def Field.primary : Field → Addr
  | .vdd => 0x01#7
  | .outmode => 0x00#7
  | .agc => 0x00#7
  | .gain => 0x02#7
  | .boost => 0x02#7
  | .fgain1 => 0x03#7
  | .fgain2 => 0x05#7
  | .offs1 => 0x04#7
  | .offs2 => 0x06#7
  | .bias => 0x07#7
  | .subaddr => 0x00#7
  | .txfreq => 0x6E#7

/-- `FM`, the mask within the payload (30_encoding.md rule R61). -/
def Field.mask : Field → Payload
  | .vdd => 0x001#11
  | .outmode => 0x002#11
  | .agc => 0x200#11
  | .gain => 0x07F#11
  | .boost => 0x080#11
  | .fgain1 => 0x07F#11
  | .fgain2 => 0x07F#11
  | .offs1 => 0x0FF#11
  | .offs2 => 0x0FF#11
  | .bias => 0x0FF#11
  | .subaddr => 0x0F0#11
  | .txfreq => 0x7FF#11

/-- `FMAX`, the largest legal first operand of the field's setter (30_encoding.md rule R61); TX frequency has no
setter, and the value there is not used. -/
def Field.maxOperand : Field → Nat
  | .vdd => 1
  | .outmode => 1
  | .agc => 1
  | .gain => 95
  | .boost => 1
  | .fgain1 => 127
  | .fgain2 => 127
  | .offs1 => 127
  | .offs2 => 127
  | .bias => 255
  | .subaddr => 15
  | .txfreq => 0

/-- The position of the lowest set bit of `m` at or above bit `i`, looking at `fuel` bits. -/
def lowestSetFrom (m : Payload) : Nat → Nat → Nat
  | 0, i => i
  | fuel + 1, i => if m.getLsbD i then i else lowestSetFrom m fuel (i + 1)

/-- `tz(m)`, the 0-indexed position of the lowest set bit (00_scope.md rule R5). `tz(0)` is not defined there, and
no operation uses it (30_encoding.md rule R60 (c)). -/
def tz (m : Payload) : Nat := lowestSetFrom m 11 0

/-- `FS = tz(FM)` (30_encoding.md rule R61). -/
def Field.shift (f : Field) : Nat := tz f.mask

/-- The field has a copy at `FA + 0x40` (30_encoding.md rule R61): every field with a setter has. -/
def Field.mirrored : Field → Bool
  | .vdd | .outmode | .agc | .gain | .boost | .fgain1 | .fgain2 | .offs1 | .offs2 | .bias | .subaddr => true
  | .txfreq => false

/-- The field's width in bits (30_encoding.md rule R61): the mask's bits from the shift up. -/
def Field.width (f : Field) : Nat := (List.range 11).countP (f.mask.getLsbD ·)

/-- `FA + 0x40`, the shadow register of a mirrored field (20_memory.md rule R41). The block forms it in a setter
only, so never for the one field that is not mirrored. -/
def Field.shadow (f : Field) : Addr := f.primary + shadowOfs

/-- `V <= FMAX` (42_field_setters.md rule R121). -/
def Field.inDomain (f : Field) (v : Word16) : Bool := v.toNat ≤ f.maxOperand

/-- `V <= 127 and M <= 1` (42_field_setters.md rules R121, R129 and R130). -/
def Field.inOffsetDomain (f : Field) (sign mag : Word16) : Bool := f.inDomain mag && sign.toNat ≤ 1

/-- The field value `V` of most setters (30_encoding.md rule R61, last column). -/
def plainValue (v : Word16) : Payload := v.setWidth 11

/-- The field value `1 - V` of SET_AGC (30_encoding.md rule R61; 42_field_setters.md rule R124). -/
def agcValue (v : Word16) : Payload := 1#11 - v.setWidth 11

/-- The field value `(M << 7) | V` of the offset setters (30_encoding.md rule R61; 42_field_setters.md rule
R129). -/
def offsetValue (sign mag : Word16) : Payload := (sign.setWidth 11 <<< 7) ||| mag.setWidth 11

/-- The right-aligned field a masked read selects (41_regcodec.md rule R102). -/
def selectField (p m : Payload) : Payload := (p &&& m) >>> tz m

/-- The payload a masked write writes back (41_regcodec.md rule R103): bits of `v` inside the mask, of `p`
outside it. -/
def mergeField (p v m : Payload) : Payload := (p &&& ~~~m) ||| (v &&& m)

end Sys2Proof.Machine
end

