-- ==== Sys2Proof/Machine/Ops.lean ====
section
/-! DEFINITION. The operations every meaning is built from: the target's registers, the two bus primitives and the
delay (00_scope.md rule R6), the Register Codec (41_regcodec.md), the paired write (42_field_setters.md rule
R120), and how an operation begins, completes and is ended by an error (60_exceptions.md rule R198). -/

namespace Sys2Proof.Machine

/-! ### The target's registers -/

/-- What an unlisted register holds (log 3). -/
def unlisted : Payload := 0#11

/-- `REG[a]`. -/
def Memory.read : Memory → Nat → Payload
  | [], _ => unlisted
  | (b, w) :: m, a => if a = b then w else Memory.read m a

/-- Every cell of `a` taken out. -/
def Memory.erase : Memory → Nat → Memory
  | [], _ => []
  | (b, w) :: m, a => if a = b then Memory.erase m a else (b, w) :: Memory.erase m a

/-- A cell put in before the first cell of a higher address. -/
def Memory.insert : Memory → Nat → Payload → Memory
  | [], a, v => [(a, v)]
  | (b, w) :: m, a, v => if a < b then (a, v) :: (b, w) :: m else (b, w) :: Memory.insert m a v

/-- `REG[a] <- v`, keeping the canonical form. -/
def Memory.write (m : Memory) (a : Nat) (v : Payload) : Memory :=
  if v = unlisted then Memory.erase m a else Memory.insert (Memory.erase m a) a v

/-- Every cell's address is at least `lo` and below 0x80, addresses strictly rise, and no cell holds what an
unlisted register holds. -/
def Memory.wfFrom : Nat → Memory → Bool
  | _, [] => true
  | lo, (b, w) :: m => decide (lo ≤ b) && decide (b < 128) && decide (w ≠ unlisted) && Memory.wfFrom (b + 1) m

/-- The canonical form. -/
def Memory.wf (m : Memory) : Bool := Memory.wfFrom 0 m

/-- Stores of other masters, in order (10_state.md rule R21 (4)). -/
def Memory.land (m : Memory) : List (Addr × Payload) → Memory
  | [] => m
  | st :: rest => Memory.land (Memory.write m st.1.toNat st.2) rest

/-- `REG[a]` of the target. -/
def State.reg (s : State) (a : Addr) : Payload := Memory.read s.regs a.toNat

/-- `REG[a] <- v` at the target. -/
def State.setReg (s : State) (a : Addr) (v : Payload) : State := { s with regs := Memory.write s.regs a.toNat v }

/-! ### Results of a piece of pseudocode -/

/-- A piece of pseudocode either goes on with a value or ends the operation with an error (00_scope.md rule R6);
either way it leaves a state. -/
inductive Res (α : Type) where
  | ok (x : α) (s : State)
  | err (e : Raise) (s : State)
deriving DecidableEq, Repr

/-- What follows runs only if nothing was raised. -/
def Res.andThen {α β : Type} (r : Res α) (k : α → State → Res β) : Res β :=
  match r with
  | .ok x s => k x s
  | .err e s => .err e s

/-! ### Bus and timer -/

/-- An event appended to the trace (10_state.md rule R18); the position moves on by one (rule R13). -/
def State.record (s : State) (e : Event) : State :=
  { s with trace := s.trace ++ [e], phase := s.phase.map (· + 1) }

/-- The frame being sent or just received (10_state.md rule R13). -/
def State.setFrm (s : State) (f : Frame) : State := { s with frm := some f }

/-- The payload the read half of a masked write returned (10_state.md rule R13). -/
def State.setTmp (s : State) (p : Payload) : State := { s with tmp := some p }

/-- What the bus does in the next transaction (20_memory.md rule R43). -/
def State.reply (s : State) : Reply :=
  match s.bus with
  | [] => s.busRest
  | r :: _ => r

/-- The next transaction's turn comes: its reply is used up and other masters' stores have landed. -/
def State.turn (s : State) : State :=
  { s with bus := s.bus.tail, regs := Memory.land s.regs s.reply.others }

/-- The two bytes a read of `a` brings next if it does not fail: the reference target's frame for `REG[a]`
(20_memory.md rule R42), or whatever the bus brings instead (rules R35 and R43). -/
def State.incoming (s : State) (a : Addr) : Byte × Byte :=
  s.reply.bytes.getD (frameBytes (readFrame s.cfg.crcPoly (s.turn.reg a) s.reply.marker))

/-- `MemRead(A, 2)` (00_scope.md rule R6, 20_memory.md rule R32). -/
def State.memRead (s : State) (a : Addr) : Res (Byte × Byte) :=
  match s.reply.fault with
  | some c => .err (.transport c) (s.turn.record (.rdFault a c))
  | none =>
    let bs := s.incoming a
    .ok bs ((s.turn.setFrm (frameOfBytes bs)).record (.rd a bs.1 bs.2))

/-- `MemWrite(A, 2, (b0, b1))` (00_scope.md rule R6). A write that completes leaves the payload sent in REG[A]
(20_memory.md rule R42); one that faults leaves the old one; in both cases the reply may say otherwise
(60_exceptions.md rule R202, log 10). -/
def State.memWrite (s : State) (a : Addr) (bs : Byte × Byte) : Res Unit :=
  let t := s.turn.setFrm (frameOfBytes bs)
  match s.reply.fault with
  | some c => .err (.transport c) ((t.setReg a (s.reply.stored.getD (t.reg a))).record (.wrFault a bs.1 bs.2 c))
  | none => .ok () ((t.setReg a (s.reply.stored.getD (framePayload (frameOfBytes bs)))).record (.wr a bs.1 bs.2))

/-- `Delay(DELAY)` (00_scope.md rule R6, 60_exceptions.md rule R203). -/
def State.delay (s : State) : State := s.record .dly

/-! ### The Register Codec -/

/-- RDREG's pseudocode (41_regcodec.md rule R100). -/
def State.readRegister (s : State) (a : Addr) : Res Payload :=
  (s.memRead a).andThen fun bs t =>
    let f := frameOfBytes bs
    if frameValid t.cfg.crcPoly f then .ok (framePayload f) t else .err (.integrity a f) t

/-- WRREG's pseudocode (41_regcodec.md rule R101). -/
def State.writeRegister (s : State) (a : Addr) (v : Payload) : Res Unit :=
  s.memWrite a (frameBytes (writeFrame s.cfg.crcPoly a v))

/-- RDMSK's pseudocode (41_regcodec.md rule R102). -/
def State.readMasked (s : State) (a : Addr) (m : Payload) : Res Payload :=
  (s.readRegister a).andThen fun p t => .ok (selectField p m) t

/-- WRMSK's pseudocode (41_regcodec.md rule R103). -/
def State.writeMasked (s : State) (a : Addr) (v m : Payload) : Res Unit :=
  (s.readRegister a).andThen fun p t => (t.setTmp p).writeRegister a (mergeField p v m)

/-- The paired write of a setter (42_field_setters.md rule R120): shadow first, then primary, a delay after
each. -/
def State.writePaired (s : State) (f : Field) (fv : Payload) : Res Unit :=
  let val := fv <<< f.shift
  (s.writeMasked f.shadow val f.mask).andThen fun _ t =>
    (t.delay.writeMasked f.primary val f.mask).andThen fun _ u => .ok () u.delay

/-! ### Beginning and end of an operation -/

/-- What a completing operation writes besides STATUS (10_state.md rule R12). -/
structure Response where
  result : Option Word16
  phys : Option Rat
deriving DecidableEq, Repr

/-- The response of an operation without a result (30_encoding.md rule R62). -/
def Response.silent : Response := ⟨none, none⟩

/-- The command is accepted (10_state.md rule R13): the block is busy, at the start of the pseudocode, with
nothing presented. -/
def State.accept (s : State) : State :=
  { s with
    busy := true, phase := some 0, tmp := none, frm := none,
    status := none, result := none, phys := none, tcause := none }

/-- The block is idle and its transient state holds no value (10_state.md rules R13 and R20). -/
def State.idle (s : State) : State := { s with busy := false, phase := none, tmp := none, frm := none }

/-- The operation completes: STATUS is OK and the response is presented (10_state.md rule R12). -/
def State.respond (s : State) (r : Response) : State :=
  { s.idle with status := some statusOk, result := r.result, phys := r.phys, tcause := none }

/-- An error ends the operation (60_exceptions.md rule R198): STATUS is written, and TCAUSE for a transport fault;
nothing is saved, no mode changes, no control is transferred, and RESULT and PHYS hold no value. There is no
return from it: the block is idle again (rule R199). -/
def State.raiseError (s : State) (e : Raise) : State :=
  { s.idle with status := some e.status, result := none, phys := none, tcause := e.cause }

/-- The end of an operation, either way. -/
def Res.finish : Res Response → State
  | .ok r s => s.respond r
  | .err e s => s.raiseError e

/-- One whole operation, from the command's acceptance to the response (10_state.md rule R21 (2), log 1). -/
def perform (body : State → Res Response) (s : State) : Host.Outcome State Fault Refusal :=
  .next (body s.accept).finish

/-- The block is reset (70_reset_and_hazards.md rules R220 and R221): idle, no response value, empty trace;
nothing outside the block changes (log 22). -/
def State.blockReset (s : State) : State :=
  { s.idle with status := none, result := none, phys := none, tcause := none, trace := [] }

end Sys2Proof.Machine
end

