-- ==== Sys2Proof/Machine/Codec.lean ====
section
/-! DEFINITION. The meanings of CRC and of the four Register Codec operations (40_crc.md rule R91, 41_regcodec.md
rules R100 to R103). -/

namespace Sys2Proof.Machine

/-- RDREG (41_regcodec.md rule R100). -/
def execRdreg (a : Addr) (s : State) : Host.Outcome State Fault Refusal :=
  perform (fun s => (s.readRegister a).andThen fun p t => .ok ⟨some (p.setWidth 16), none⟩ t) s

/-- WRREG (41_regcodec.md rule R101). -/
def execWrreg (a : Addr) (v : Payload) (s : State) : Host.Outcome State Fault Refusal :=
  perform (fun s => (s.writeRegister a v).andThen fun _ t => .ok .silent t) s

/-- RDMSK (41_regcodec.md rule R102); a mask of zero is illegal (30_encoding.md rule R60 (c), log 19). -/
def execRdmsk (a : Addr) (m : Payload) (s : State) : Host.Outcome State Fault Refusal :=
  perform (fun s =>
    if m = 0#11 then .err .illegal s
    else (s.readMasked a m).andThen fun v t => .ok ⟨some (v.setWidth 16), none⟩ t) s

/-- WRMSK (41_regcodec.md rule R103). -/
def execWrmsk (a : Addr) (v m : Payload) (s : State) : Host.Outcome State Fault Refusal :=
  perform (fun s => (s.writeMasked a v m).andThen fun _ t => .ok .silent t) s

/-- CRC (40_crc.md rule R91). The engine's port is 7 bits wide, zero-extended to RESULT (rule R90). -/
def execCrc (word : BitVec 24) (poly fill : BitVec 8) (s : State) : Host.Outcome State Fault Refusal :=
  perform (fun s =>
    if poly = 0#8 then .err .illegal s
    else .ok ⟨some ((crcDiv 24 8 8 word poly fill).setWidth 16), none⟩ s) s

end Sys2Proof.Machine
end

