-- ==== Sys2Proof/Machine/Getters.lean ====
section
/-! DEFINITION. The meanings of the twelve raw getters (43_field_getters.md rules R150 to R162). -/

namespace Sys2Proof.Machine

/-- The template of every raw getter (43_field_getters.md rule R150): one masked read of the primary register,
then the getter's post-processing of the code. -/
def State.getField (s : State) (f : Field) (post : Payload → Payload) : Res Response :=
  (s.readMasked f.primary f.mask).andThen fun code t => .ok ⟨some ((post code).setWidth 16), none⟩ t

/-- GET_VDD (43_field_getters.md rule R151). -/
def execGetVdd (s : State) : Host.Outcome State Fault Refusal :=
  perform (fun s => s.getField .vdd (fun code => code)) s

/-- GET_OUTMODE (43_field_getters.md rule R152). -/
def execGetOutmode (s : State) : Host.Outcome State Fault Refusal :=
  perform (fun s => s.getField .outmode (fun code => code)) s

/-- GET_AGC (43_field_getters.md rule R153); the result is the enable, the inverse of the register bit. -/
def execGetAgc (s : State) : Host.Outcome State Fault Refusal :=
  perform (fun s => s.getField .agc (fun code => 1#11 - code)) s

/-- GET_GAIN (43_field_getters.md rule R154). -/
def execGetGain (s : State) : Host.Outcome State Fault Refusal :=
  perform (fun s => s.getField .gain (fun code => code)) s

/-- GET_BOOST (43_field_getters.md rule R155). -/
def execGetBoost (s : State) : Host.Outcome State Fault Refusal :=
  perform (fun s => s.getField .boost (fun code => code)) s

/-- GET_FGAIN1 (43_field_getters.md rule R156). -/
def execGetFgain1 (s : State) : Host.Outcome State Fault Refusal :=
  perform (fun s => s.getField .fgain1 (fun code => code)) s

/-- GET_FGAIN2 (43_field_getters.md rule R157). -/
def execGetFgain2 (s : State) : Host.Outcome State Fault Refusal :=
  perform (fun s => s.getField .fgain2 (fun code => code)) s

/-- GET_OFFS1 (43_field_getters.md rule R158). -/
def execGetOffs1 (s : State) : Host.Outcome State Fault Refusal :=
  perform (fun s => s.getField .offs1 (fun code => code)) s

/-- GET_OFFS2 (43_field_getters.md rule R159). -/
def execGetOffs2 (s : State) : Host.Outcome State Fault Refusal :=
  perform (fun s => s.getField .offs2 (fun code => code)) s

/-- GET_BIAS (43_field_getters.md rule R160). -/
def execGetBias (s : State) : Host.Outcome State Fault Refusal :=
  perform (fun s => s.getField .bias (fun code => code)) s

/-- GET_SUBADDR (43_field_getters.md rule R161). -/
def execGetSubaddr (s : State) : Host.Outcome State Fault Refusal :=
  perform (fun s => s.getField .subaddr (fun code => code)) s

/-- GET_TXFREQ (43_field_getters.md rule R162). -/
def execGetTxfreq (s : State) : Host.Outcome State Fault Refusal :=
  perform (fun s => s.getField .txfreq (fun code => code)) s

end Sys2Proof.Machine
end

