-- ==== Sys2Proof/Machine/Convert.lean ====
section
/-! DEFINITION. The conversions from raw codes to physical units, exact over the rationals, and the rounding of the
PHYS port (43_field_getters.md rules R163 to R173). -/

namespace Sys2Proof.Machine

/-- `rnd` of 00_scope.md rule R4, applied once, to the final value; the identity when PHYS_FMT is ℚ
(43_field_getters.md rule R171). -/
def rnd (fmt : PhysFmt) (q : Rat) : Rat :=
  match fmt with
  | .exact => q
  | .rounded k => Config.roundTo k q

/-- `gain(code)` for codes 0 to 95 (43_field_getters.md rule R171). -/
def gain (cfg : Params) (code : Fin 96) : Rat := cfg.gainTable[code]

/-- `fgain(code) = 1 + code × FGAIN_STEP` (43_field_getters.md rule R171). -/
def fgain (cfg : Params) (code : Nat) : Rat := 1 + (code : Rat) * cfg.fgainStep

/-- `offs(sbit, mag) = (1 - 2 × sbit) × mag × OFFS_STEP` (43_field_getters.md rule R171). -/
def offs (cfg : Params) (sbit mag : Nat) : Rat := (1 - 2 * (sbit : Rat)) * (mag : Rat) * cfg.offsStep

/-- `bias(code) = 4^(code >> 6) × (code & 0x3F) × BIAS_UNIT` (43_field_getters.md rule R171). -/
def bias (cfg : Params) (code : Nat) : Rat :=
  ((4 ^ (code >>> 6) : Nat) : Rat) * ((code &&& 0x3F : Nat) : Rat) * cfg.biasUnit

/-- `txf(code) = code × TXF_STEP` (43_field_getters.md rule R171). -/
def txf (cfg : Params) (code : Nat) : Rat := (code : Rat) * cfg.txfStep

/-- `effgain(code, boost)`, a helper the host computes, no operation (43_field_getters.md rule R172). -/
def effgain (cfg : Params) (code : Fin 96) (boost : Fin 2) : Rat := gain cfg code * (1 + (boost.val : Rat))

/-- The value of GETP_OFFS1 and GETP_OFFS2 from the raw code: bit 7 is the sign, bits 6 to 0 the magnitude
(43_field_getters.md rule R167). -/
def offsOfCode (cfg : Params) (code : Payload) : Rat :=
  offs cfg (code.extractLsb' 7 1).toNat (code.extractLsb' 0 7).toNat

end Sys2Proof.Machine
end

