-- ==== Sys2Proof/Machine/Physical.lean ====
section
/-! DEFINITION. The meanings of the seven physical getters (43_field_getters.md rules R164 to R170). -/

namespace Sys2Proof.Machine

/-- The template of a physical getter that cannot be inconsistent (43_field_getters.md rule R150): RESULT is the
raw code, PHYS the rounded conversion of it. -/
def State.getPhysical (s : State) (f : Field) (conv : Params → Payload → Rat) : Res Response :=
  (s.readMasked f.primary f.mask).andThen fun code t =>
    .ok ⟨some (code.setWidth 16), some (rnd t.cfg.physFmt (conv t.cfg code))⟩ t

/-- GETP_GAIN (43_field_getters.md rule R164): a stored code above 95 is inconsistent; the boost is not
included. -/
def execGetpGain (s : State) : Host.Outcome State Fault Refusal :=
  perform (fun s => (s.readMasked Field.gain.primary Field.gain.mask).andThen fun code t =>
    if h : code.toNat < 96 then
      .ok ⟨some (code.setWidth 16), some (rnd t.cfg.physFmt (gain t.cfg ⟨code.toNat, h⟩))⟩ t
    else .err (.inconsistent code) t) s

/-- GETP_FGAIN1 (43_field_getters.md rule R165). -/
def execGetpFgain1 (s : State) : Host.Outcome State Fault Refusal :=
  perform (fun s => s.getPhysical .fgain1 (fun cfg code => fgain cfg code.toNat)) s

/-- GETP_FGAIN2 (43_field_getters.md rule R166). -/
def execGetpFgain2 (s : State) : Host.Outcome State Fault Refusal :=
  perform (fun s => s.getPhysical .fgain2 (fun cfg code => fgain cfg code.toNat)) s

/-- GETP_OFFS1 (43_field_getters.md rule R167). -/
def execGetpOffs1 (s : State) : Host.Outcome State Fault Refusal :=
  perform (fun s => s.getPhysical .offs1 offsOfCode) s

/-- GETP_OFFS2 (43_field_getters.md rule R168). -/
def execGetpOffs2 (s : State) : Host.Outcome State Fault Refusal :=
  perform (fun s => s.getPhysical .offs2 offsOfCode) s

/-- GETP_BIAS (43_field_getters.md rule R169). -/
def execGetpBias (s : State) : Host.Outcome State Fault Refusal :=
  perform (fun s => s.getPhysical .bias (fun cfg code => bias cfg code.toNat)) s

/-- GETP_TXFREQ (43_field_getters.md rule R170). -/
def execGetpTxfreq (s : State) : Host.Outcome State Fault Refusal :=
  perform (fun s => s.getPhysical .txfreq (fun cfg code => txf cfg code.toNat)) s

end Sys2Proof.Machine
end

