-- ==== Sys2Proof/Machine/Setters.lean ====
section
/-! DEFINITION. The meanings of the eleven setters (42_field_setters.md rules R120 to R132). -/

namespace Sys2Proof.Machine

/-- The template of every setter: the range check before the bus is touched (42_field_setters.md rule R121), then
the paired write (rule R120). -/
def State.setField (s : State) (f : Field) (legal : Bool) (fv : Payload) : Res Response :=
  if legal then (s.writePaired f fv).andThen fun _ t => .ok .silent t else .err .range s

/-- SET_VDD (42_field_setters.md rule R122). -/
def execSetVdd (v : Word16) (s : State) : Host.Outcome State Fault Refusal :=
  perform (fun s => s.setField .vdd (Field.inDomain .vdd v) (plainValue v)) s

/-- SET_OUTMODE (42_field_setters.md rule R123). -/
def execSetOutmode (v : Word16) (s : State) : Host.Outcome State Fault Refusal :=
  perform (fun s => s.setField .outmode (Field.inDomain .outmode v) (plainValue v)) s

/-- SET_AGC (42_field_setters.md rule R124); the register bit is the inverse of the enable. -/
def execSetAgc (v : Word16) (s : State) : Host.Outcome State Fault Refusal :=
  perform (fun s => s.setField .agc (Field.inDomain .agc v) (agcValue v)) s

/-- SET_GAIN (42_field_setters.md rule R125). -/
def execSetGain (v : Word16) (s : State) : Host.Outcome State Fault Refusal :=
  perform (fun s => s.setField .gain (Field.inDomain .gain v) (plainValue v)) s

/-- SET_BOOST (42_field_setters.md rule R126). -/
def execSetBoost (v : Word16) (s : State) : Host.Outcome State Fault Refusal :=
  perform (fun s => s.setField .boost (Field.inDomain .boost v) (plainValue v)) s

/-- SET_FGAIN1 (42_field_setters.md rule R127). -/
def execSetFgain1 (v : Word16) (s : State) : Host.Outcome State Fault Refusal :=
  perform (fun s => s.setField .fgain1 (Field.inDomain .fgain1 v) (plainValue v)) s

/-- SET_FGAIN2 (42_field_setters.md rule R128). -/
def execSetFgain2 (v : Word16) (s : State) : Host.Outcome State Fault Refusal :=
  perform (fun s => s.setField .fgain2 (Field.inDomain .fgain2 v) (plainValue v)) s

/-- SET_OFFS1 (42_field_setters.md rule R129). -/
def execSetOffs1 (sign mag : Word16) (s : State) : Host.Outcome State Fault Refusal :=
  perform (fun s => s.setField .offs1 (Field.inOffsetDomain .offs1 sign mag) (offsetValue sign mag)) s

/-- SET_OFFS2 (42_field_setters.md rule R130). -/
def execSetOffs2 (sign mag : Word16) (s : State) : Host.Outcome State Fault Refusal :=
  perform (fun s => s.setField .offs2 (Field.inOffsetDomain .offs2 sign mag) (offsetValue sign mag)) s

/-- SET_BIAS (42_field_setters.md rule R131). -/
def execSetBias (v : Word16) (s : State) : Host.Outcome State Fault Refusal :=
  perform (fun s => s.setField .bias (Field.inDomain .bias v) (plainValue v)) s

/-- SET_SUBADDR (42_field_setters.md rule R132). -/
def execSetSubaddr (v : Word16) (s : State) : Host.Outcome State Fault Refusal :=
  perform (fun s => s.setField .subaddr (Field.inDomain .subaddr v) (plainValue v)) s

end Sys2Proof.Machine
end

