-- ==== Sys2Proof/Machine/Dispatch.lean ====
section
/-! DEFINITION. Every operation to its meaning. -/

namespace Sys2Proof.Machine

def exec (i : Instr) (s : State) : Host.Outcome State Fault Refusal :=
  match i with
  | .rdreg a => Sys2Proof.Machine.execRdreg a s
  | .wrreg a v => Sys2Proof.Machine.execWrreg a v s
  | .rdmsk a m => Sys2Proof.Machine.execRdmsk a m s
  | .wrmsk a v m => Sys2Proof.Machine.execWrmsk a v m s
  | .crc word poly fill => Sys2Proof.Machine.execCrc word poly fill s
  | .setVdd v => Sys2Proof.Machine.execSetVdd v s
  | .setOutmode v => Sys2Proof.Machine.execSetOutmode v s
  | .setAgc v => Sys2Proof.Machine.execSetAgc v s
  | .setGain v => Sys2Proof.Machine.execSetGain v s
  | .setBoost v => Sys2Proof.Machine.execSetBoost v s
  | .setFgain1 v => Sys2Proof.Machine.execSetFgain1 v s
  | .setFgain2 v => Sys2Proof.Machine.execSetFgain2 v s
  | .setOffs1 sign mag => Sys2Proof.Machine.execSetOffs1 sign mag s
  | .setOffs2 sign mag => Sys2Proof.Machine.execSetOffs2 sign mag s
  | .setBias v => Sys2Proof.Machine.execSetBias v s
  | .setSubaddr v => Sys2Proof.Machine.execSetSubaddr v s
  | .getVdd => Sys2Proof.Machine.execGetVdd s
  | .getOutmode => Sys2Proof.Machine.execGetOutmode s
  | .getAgc => Sys2Proof.Machine.execGetAgc s
  | .getGain => Sys2Proof.Machine.execGetGain s
  | .getBoost => Sys2Proof.Machine.execGetBoost s
  | .getFgain1 => Sys2Proof.Machine.execGetFgain1 s
  | .getFgain2 => Sys2Proof.Machine.execGetFgain2 s
  | .getOffs1 => Sys2Proof.Machine.execGetOffs1 s
  | .getOffs2 => Sys2Proof.Machine.execGetOffs2 s
  | .getBias => Sys2Proof.Machine.execGetBias s
  | .getSubaddr => Sys2Proof.Machine.execGetSubaddr s
  | .getTxfreq => Sys2Proof.Machine.execGetTxfreq s
  | .getpGain => Sys2Proof.Machine.execGetpGain s
  | .getpFgain1 => Sys2Proof.Machine.execGetpFgain1 s
  | .getpFgain2 => Sys2Proof.Machine.execGetpFgain2 s
  | .getpOffs1 => Sys2Proof.Machine.execGetpOffs1 s
  | .getpOffs2 => Sys2Proof.Machine.execGetpOffs2 s
  | .getpBias => Sys2Proof.Machine.execGetpBias s
  | .getpTxfreq => Sys2Proof.Machine.execGetpTxfreq s

end Sys2Proof.Machine
end

