-- ==== Sys2Proof/Machine/Port.lean ====
section
/-! DEFINITION. The host command port: what the host presents next, what it does after a response, and the answer
to an illegal command (10_state.md rules R15 and R21, 60_exceptions.md rules R195 and R199). -/

namespace Sys2Proof.Machine

/-- The command the host presents next, if any (10_state.md rule R15). -/
def State.presented (s : State) : Option Command := if s.stopped then none else s.cmds.head?

/-- The host after a response (10_state.md rule R15): on OK it goes on to the next command of its list, on any
other status it stops presenting. -/
def State.hostNext (s : State) : State :=
  if s.status = some statusOk then { s with cmds := s.cmds.tail, cmdIdx := s.cmdIdx + 1 }
  else { s with stopped := true }

/-- The answer to an illegal command word (60_exceptions.md rule R195): no transaction, no delay, no result. -/
def State.rejectIllegal (s : State) : State := s.accept.raiseError .illegal

/-- The host begins a new program (10_state.md rule R15); the block accepts it whatever the last status was
(60_exceptions.md rule R199). -/
def State.present (s : State) (program : List Command) : State :=
  { s with cmds := program, cmdIdx := 0, stopped := false }

/-- The host is about to present `w`, and the block is idle. -/
def State.withCommand (s : State) (w : Command) : State :=
  { s with cmds := w :: s.cmds.tail, stopped := false, busy := false }

end Sys2Proof.Machine
end

