-- ==== Sys2Proof/Machine/Step.lean ====
section
/-! DEFINITION. One step of the machine: the host presents its next command and the block performs it. -/

namespace Sys2Proof.Machine

/-- One step. With nothing presented the block stays idle (log 11); an illegal word is answered ILLEGAL
(30_encoding.md rule R60); a legal one runs, and then the host goes on or stops (10_state.md rule R15). -/
def step (s : State) : Host.Outcome State Fault Refusal :=
  if s.busy then .refused .commandWhileBusy
  else
    match s.presented with
    | none => .next s
    | some w =>
      match decode w with
      | .error _ => .next s.rejectIllegal.hostNext
      | .ok i =>
        match exec i s with
        | .next t => .next t.hostNext
        | .fault r => .fault r
        | .refused r => .refused r

/-- `s` with the command whose bits are `w` (those at and above `nbits` zero) next at the command port: the host is
presenting and the block is idle. It stands for the host's choice of a program (log 11). -/
def State.withFetchWord (s : State) (nbits w : Nat) : State := s.withCommand (BitVec.ofNat 48 (w % 2 ^ nbits))

end Sys2Proof.Machine
end

