-- ==== Sys2Proof/Safety.lean ====
section
/-! DEFINITION. What the statements speak of: safe states and traces, a bus that behaves as the reference target,
the full description of a state after an operation, and the spec's own tables written out again from its
per-operation rules (not from the field map of Machine/Operands.lean). -/

namespace Sys2Proof

/-- The opcode of an operation, as the opcode map gives it (30_encoding.md rule R59). Neither the decoder nor the
encoder calls it. -/
def Instr.opcode : Instr → BitVec 8
  | .rdreg _ => 0x01#8
  | .wrreg _ _ => 0x02#8
  | .rdmsk _ _ => 0x03#8
  | .wrmsk _ _ _ => 0x04#8
  | .crc _ _ _ => 0x08#8
  | .setVdd _ => 0x10#8
  | .setOutmode _ => 0x11#8
  | .setAgc _ => 0x12#8
  | .setGain _ => 0x13#8
  | .setBoost _ => 0x14#8
  | .setFgain1 _ => 0x15#8
  | .setFgain2 _ => 0x16#8
  | .setOffs1 _ _ => 0x17#8
  | .setOffs2 _ _ => 0x18#8
  | .setBias _ => 0x19#8
  | .setSubaddr _ => 0x1A#8
  | .getVdd => 0x20#8
  | .getOutmode => 0x21#8
  | .getAgc => 0x22#8
  | .getGain => 0x23#8
  | .getBoost => 0x24#8
  | .getFgain1 => 0x25#8
  | .getFgain2 => 0x26#8
  | .getOffs1 => 0x27#8
  | .getOffs2 => 0x28#8
  | .getBias => 0x29#8
  | .getSubaddr => 0x2A#8
  | .getTxfreq => 0x2B#8
  | .getpGain => 0x33#8
  | .getpFgain1 => 0x35#8
  | .getpFgain2 => 0x36#8
  | .getpOffs1 => 0x37#8
  | .getpOffs2 => 0x38#8
  | .getpBias => 0x39#8
  | .getpTxfreq => 0x3B#8

end Sys2Proof

namespace Sys2Proof.Machine

/-! ### Safe states and traces -/

/-- The block is idle: no transient state holds a value (10_state.md rules R13 and R20). -/
abbrev State.Idle (s : State) : Prop := s.busy = false ∧ s.phase = none ∧ s.tmp = none ∧ s.frm = none

/-- The response ports hold only what 10_state.md rule R12 and 30_encoding.md rule R62 let them hold: STATUS codes
6 and 7 never, RESULT only after OK, PHYS only with RESULT, TCAUSE exactly after TRANSPORT. -/
abbrev State.ResponseOk (s : State) : Prop :=
  (∀ c ∈ s.status, c ≤ 5#3) ∧
  (s.result.isSome → s.status = some 0#3) ∧
  (s.phys.isSome → s.result.isSome) ∧
  (s.tcause.isSome ↔ s.status = some 3#3)

/-- The invariant of every state between two steps: idle, a legal response, REG in canonical form, well-formed
parameters. -/
abbrev State.Inv (s : State) : Prop :=
  s.Idle ∧ s.ResponseOk ∧ Memory.wf s.regs = true ∧ s.cfg.wf

/-- CRC_POLY has bit length 4 (00_scope.md rule R4). -/
abbrev State.FourBitPoly (s : State) : Prop := s.cfg.crcPoly.getLsbD 3 = true

/-- An event is a bus transaction (20_memory.md rule R32). -/
def Event.isTransaction : Event → Bool
  | .rd _ _ _ => true
  | .rdFault _ _ => true
  | .wr _ _ _ => true
  | .wrFault _ _ _ _ => true
  | .dly => false

/-- An event is a failed transaction. -/
def Event.isFault : Event → Bool
  | .rd _ _ _ => false
  | .rdFault _ _ => true
  | .wr _ _ _ => false
  | .wrFault _ _ _ _ => true
  | .dly => false

/-- The cause of a failed transaction. -/
def Event.cause : Event → Option Cause
  | .rd _ _ _ => none
  | .rdFault _ c => some c
  | .wr _ _ _ => none
  | .wrFault _ _ _ c => some c
  | .dly => none

/-- The settling delay is kept (70_reset_and_hazards.md rule R224): every completed write of the trace is followed
at once by a delay. -/
def delaysKept : List Event → Bool
  | [] => true
  | .wr _ _ _ :: rest =>
    (match rest with
      | .dly :: _ => true
      | _ => false) && delaysKept rest
  | _ :: rest => delaysKept rest

/-! ### The bus -/

/-- What the bus does in the transaction after the next `k`. -/
def State.replyAt (s : State) (k : Nat) : Reply := (s.bus[k]?).getD s.busRest

/-- The reply is the reference target's (20_memory.md rule R42), whatever marker it draws: no fault, no other
bytes, no other master, the payload sent is the payload stored. -/
abbrev Reply.isReference (r : Reply) : Prop :=
  r.others = [] ∧ r.bytes = none ∧ r.fault = none ∧ r.stored = none

/-- Every coming transaction is answered by the reference target. -/
abbrev State.ReferenceBus (s : State) : Prop := (∀ r ∈ s.bus, r.isReference) ∧ s.busRest.isReference

/-- No other master stores anything in any coming transaction (70_reset_and_hazards.md rule R222 (3)). -/
abbrev State.SingleMaster (s : State) : Prop := (∀ r ∈ s.bus, r.others = []) ∧ s.busRest.others = []

/-- The remainder the Register Codec forms over a received frame (41_regcodec.md rule R100): the engine over the
canonical word of bits 15 to 5 with bits 2 to 0 as the filler. -/
def State.remainder (s : State) (f : Frame) : Nat :=
  crc (canon (f.extractLsb' 5 11)).toNat s.cfg.crcPoly.toNat (f.extractLsb' 0 3).toNat

/-- `Rd(A, b0, b1)` with the bytes of a frame. -/
def readEvent (a : Addr) (f : Frame) : Event := .rd a (f.extractLsb' 8 8) (f.extractLsb' 0 8)

/-- `Wr(A, b0, b1)` with the bytes of a frame. -/
def writeEvent (a : Addr) (f : Frame) : Event := .wr a (f.extractLsb' 8 8) (f.extractLsb' 0 8)

/-! ### A state after an operation -/

/-- `s` after an operation that used replies of the bus up to `bus`, left REG as `regs`, added `events` to the trace
and presented the given response. The block is idle and everything else is as in `s`: configuration, the bus
beyond, the host's side. -/
def State.outcome (s : State) (bus : List Reply) (regs : Memory) (events : List Event) (status : BitVec 3)
    (result : Option Word16) (phys : Option Rat) (tcause : Option Cause) : State :=
  { s with
    busy := false, phase := none, tmp := none, frm := none,
    status := some status, result := result, phys := phys, tcause := tcause,
    trace := s.trace ++ events, regs := regs, bus := bus }

/-! ### The GF(2) reading of a natural number -/

/-- A GF(2) multiple of `poly` (40_crc.md rule R85): the exclusive OR of its copies shifted by the given amounts. -/
def xorShifts (poly : Nat) : List Nat → Nat
  | [] => 0
  | k :: ks => (poly <<< k) ^^^ xorShifts poly ks

/-! ### The spec's tables -/

/-- (match, mask) of the rows of spec/opcode_table.json, in its order. -/
def opcodeRows : List (Command × Command) := [
  (0x010000000000#48, 0xFF80FFFFFFFF#48),
  (0x020000000000#48, 0xFF80F800FFFF#48),
  (0x030000000000#48, 0xFF80FFFFF800#48),
  (0x040000000000#48, 0xFF80F800F800#48),
  (0x080000000000#48, 0xFF0000000000#48),
  (0x100000000000#48, 0xFFFF0000FFFF#48),
  (0x110000000000#48, 0xFFFF0000FFFF#48),
  (0x120000000000#48, 0xFFFF0000FFFF#48),
  (0x130000000000#48, 0xFFFF0000FFFF#48),
  (0x140000000000#48, 0xFFFF0000FFFF#48),
  (0x150000000000#48, 0xFFFF0000FFFF#48),
  (0x160000000000#48, 0xFFFF0000FFFF#48),
  (0x170000000000#48, 0xFFFF00000000#48),
  (0x180000000000#48, 0xFFFF00000000#48),
  (0x190000000000#48, 0xFFFF0000FFFF#48),
  (0x1A0000000000#48, 0xFFFF0000FFFF#48),
  (0x200000000000#48, 0xFFFFFFFFFFFF#48),
  (0x210000000000#48, 0xFFFFFFFFFFFF#48),
  (0x220000000000#48, 0xFFFFFFFFFFFF#48),
  (0x230000000000#48, 0xFFFFFFFFFFFF#48),
  (0x240000000000#48, 0xFFFFFFFFFFFF#48),
  (0x250000000000#48, 0xFFFFFFFFFFFF#48),
  (0x260000000000#48, 0xFFFFFFFFFFFF#48),
  (0x270000000000#48, 0xFFFFFFFFFFFF#48),
  (0x280000000000#48, 0xFFFFFFFFFFFF#48),
  (0x290000000000#48, 0xFFFFFFFFFFFF#48),
  (0x2A0000000000#48, 0xFFFFFFFFFFFF#48),
  (0x2B0000000000#48, 0xFFFFFFFFFFFF#48),
  (0x330000000000#48, 0xFFFFFFFFFFFF#48),
  (0x350000000000#48, 0xFFFFFFFFFFFF#48),
  (0x360000000000#48, 0xFFFFFFFFFFFF#48),
  (0x370000000000#48, 0xFFFFFFFFFFFF#48),
  (0x380000000000#48, 0xFFFFFFFFFFFF#48),
  (0x390000000000#48, 0xFFFFFFFFFFFF#48),
  (0x3B0000000000#48, 0xFFFFFFFFFFFF#48)]

/-- The field map's table (30_encoding.md rule R61): field, index, FA, mirrored, FM, FS, width. -/
def fieldMap : List (Field × BitVec 4 × Addr × Bool × Payload × Nat × Nat) := [
  (.vdd, 0x0#4, 0x01#7, true, 0x001#11, 0, 1),
  (.outmode, 0x1#4, 0x00#7, true, 0x002#11, 1, 1),
  (.agc, 0x2#4, 0x00#7, true, 0x200#11, 9, 1),
  (.gain, 0x3#4, 0x02#7, true, 0x07F#11, 0, 7),
  (.boost, 0x4#4, 0x02#7, true, 0x080#11, 7, 1),
  (.fgain1, 0x5#4, 0x03#7, true, 0x07F#11, 0, 7),
  (.fgain2, 0x6#4, 0x05#7, true, 0x07F#11, 0, 7),
  (.offs1, 0x7#4, 0x04#7, true, 0x0FF#11, 0, 8),
  (.offs2, 0x8#4, 0x06#7, true, 0x0FF#11, 0, 8),
  (.bias, 0x9#4, 0x07#7, true, 0x0FF#11, 0, 8),
  (.subaddr, 0xA#4, 0x00#7, true, 0x0F0#11, 4, 4),
  (.txfreq, 0xB#4, 0x6E#7, false, 0x7FF#11, 0, 11)]

/-- The field whose physical value a GETP_ operation gives (30_encoding.md rule R59). -/
def physicalFields : List (Instr × Field) := [
  (.getpGain, .gain), (.getpFgain1, .fgain1), (.getpFgain2, .fgain2), (.getpOffs1, .offs1),
  (.getpOffs2, .offs2), (.getpBias, .bias), (.getpTxfreq, .txfreq)]

/-- A setter as its own rule of 42_field_setters.md gives it, for operand `v` and, for the offsets, sign `sign`. -/
structure SetterRow where
  instr : Instr
  /-- The operands are in the domain. -/
  legal : Bool
  shadow : Addr
  primary : Addr
  mask : Payload
  /-- The field value, at the mask's position. -/
  val : Payload

/-- The magnitude with the sign bit above it (42_field_setters.md rule R129). -/
def signMagnitude (sign v : Word16) : Payload :=
  if sign = 1#16 then 0x080#11 ||| v.setWidth 11 else v.setWidth 11

/-- 42_field_setters.md rules R122 to R132. -/
def setterRows (v sign : Word16) : List SetterRow := [
  ⟨.setVdd v, v ≤ 1#16, 0x41#7, 0x01#7, 0x001#11, v.setWidth 11⟩,
  ⟨.setOutmode v, v ≤ 1#16, 0x40#7, 0x00#7, 0x002#11, v.setWidth 11 <<< 1⟩,
  ⟨.setAgc v, v ≤ 1#16, 0x40#7, 0x00#7, 0x200#11, if v = 1#16 then 0x000#11 else 0x200#11⟩,
  ⟨.setGain v, v ≤ 95#16, 0x42#7, 0x02#7, 0x07F#11, v.setWidth 11⟩,
  ⟨.setBoost v, v ≤ 1#16, 0x42#7, 0x02#7, 0x080#11, v.setWidth 11 <<< 7⟩,
  ⟨.setFgain1 v, v ≤ 127#16, 0x43#7, 0x03#7, 0x07F#11, v.setWidth 11⟩,
  ⟨.setFgain2 v, v ≤ 127#16, 0x45#7, 0x05#7, 0x07F#11, v.setWidth 11⟩,
  ⟨.setOffs1 sign v, v ≤ 127#16 && sign ≤ 1#16, 0x44#7, 0x04#7, 0x0FF#11, signMagnitude sign v⟩,
  ⟨.setOffs2 sign v, v ≤ 127#16 && sign ≤ 1#16, 0x46#7, 0x06#7, 0x0FF#11, signMagnitude sign v⟩,
  ⟨.setBias v, v ≤ 255#16, 0x47#7, 0x07#7, 0x0FF#11, v.setWidth 11⟩,
  ⟨.setSubaddr v, v ≤ 15#16, 0x40#7, 0x00#7, 0x0F0#11, v.setWidth 11 <<< 4⟩]

/-- A raw getter as its own rule of 43_field_getters.md gives it. -/
structure GetterRow where
  instr : Instr
  addr : Addr
  /-- RESULT from the payload read. -/
  result : Payload → Word16

/-- 43_field_getters.md rules R151 to R162; the bits are those of 20_memory.md rule R31. -/
def getterRows : List GetterRow := [
  ⟨.getVdd, 0x01#7, fun p => (p.extractLsb' 0 1).setWidth 16⟩,
  ⟨.getOutmode, 0x00#7, fun p => (p.extractLsb' 1 1).setWidth 16⟩,
  ⟨.getAgc, 0x00#7, fun p => if p.getLsbD 9 then 0#16 else 1#16⟩,
  ⟨.getGain, 0x02#7, fun p => (p.extractLsb' 0 7).setWidth 16⟩,
  ⟨.getBoost, 0x02#7, fun p => (p.extractLsb' 7 1).setWidth 16⟩,
  ⟨.getFgain1, 0x03#7, fun p => (p.extractLsb' 0 7).setWidth 16⟩,
  ⟨.getFgain2, 0x05#7, fun p => (p.extractLsb' 0 7).setWidth 16⟩,
  ⟨.getOffs1, 0x04#7, fun p => (p.extractLsb' 0 8).setWidth 16⟩,
  ⟨.getOffs2, 0x06#7, fun p => (p.extractLsb' 0 8).setWidth 16⟩,
  ⟨.getBias, 0x07#7, fun p => (p.extractLsb' 0 8).setWidth 16⟩,
  ⟨.getSubaddr, 0x00#7, fun p => (p.extractLsb' 4 4).setWidth 16⟩,
  ⟨.getTxfreq, 0x6E#7, fun p => p.setWidth 16⟩]

/-- The fields with a setter, in the order of `setterRows`: setter, raw getter, and what the getter returns after
the setter (42_field_setters.md rule R133). -/
def roundTrips (v sign : Word16) : List (Instr × Instr × Word16) := [
  (.setVdd v, .getVdd, v),
  (.setOutmode v, .getOutmode, v),
  (.setAgc v, .getAgc, v),
  (.setGain v, .getGain, v),
  (.setBoost v, .getBoost, v),
  (.setFgain1 v, .getFgain1, v),
  (.setFgain2 v, .getFgain2, v),
  (.setOffs1 sign v, .getOffs1, (sign <<< 7) ||| v),
  (.setOffs2 sign v, .getOffs2, (sign <<< 7) ||| v),
  (.setBias v, .getBias, v),
  (.setSubaddr v, .getSubaddr, v)]

/-- A physical getter as its own rule of 43_field_getters.md gives it: RESULT and the exact value of PHYS from the
payload read. -/
structure PhysicalRow where
  instr : Instr
  addr : Addr
  result : Payload → Word16
  phys : Params → Payload → Rat

/-- `s × mag × OFFS_STEP` with `s = -1` when the sign bit 7 is 1 (43_field_getters.md rule R167). -/
def offsetFraction (cfg : Params) (p : Payload) : Rat :=
  if p.getLsbD 7 then -(((p.extractLsb' 0 7).toNat : Rat) * cfg.offsStep)
  else ((p.extractLsb' 0 7).toNat : Rat) * cfg.offsStep

/-- 43_field_getters.md rules R165 to R170 (GETP_GAIN, rule R164, has a statement of its own). -/
def physicalRows : List PhysicalRow := [
  ⟨.getpFgain1, 0x03#7, fun p => (p.extractLsb' 0 7).setWidth 16,
    fun cfg p => 1 + ((p.extractLsb' 0 7).toNat : Rat) * cfg.fgainStep⟩,
  ⟨.getpFgain2, 0x05#7, fun p => (p.extractLsb' 0 7).setWidth 16,
    fun cfg p => 1 + ((p.extractLsb' 0 7).toNat : Rat) * cfg.fgainStep⟩,
  ⟨.getpOffs1, 0x04#7, fun p => (p.extractLsb' 0 8).setWidth 16, offsetFraction⟩,
  ⟨.getpOffs2, 0x06#7, fun p => (p.extractLsb' 0 8).setWidth 16, offsetFraction⟩,
  ⟨.getpBias, 0x07#7, fun p => (p.extractLsb' 0 8).setWidth 16,
    fun cfg p => (2 : Rat) ^ (2 * (p.extractLsb' 6 2).toNat) * ((p.extractLsb' 0 6).toNat : Rat) * cfg.biasUnit⟩,
  ⟨.getpTxfreq, 0x6E#7, fun p => p.setWidth 16, fun cfg p => (p.toNat : Rat) * cfg.txfStep⟩]

/-- The operations that perform exactly one read and nothing else on the bus, with the register they read. -/
def readers (a : Addr) (m : Payload) : List (Instr × Addr) :=
  (.rdreg a, a) :: (.rdmsk a m, a) :: (.getpGain, 0x02#7) ::
    (getterRows.map (fun r => (r.instr, r.addr)) ++ physicalRows.map fun r => (r.instr, r.addr))

/-- The registers an operation can store to (41_regcodec.md rules R101 and R103, 42_field_setters.md rules R122 to
R132). -/
def stores : Instr → List Addr
  | .wrreg a _ => [a]
  | .wrmsk a _ _ => [a]
  | .setVdd _ => [0x41#7, 0x01#7]
  | .setOutmode _ => [0x40#7, 0x00#7]
  | .setAgc _ => [0x40#7, 0x00#7]
  | .setGain _ => [0x42#7, 0x02#7]
  | .setBoost _ => [0x42#7, 0x02#7]
  | .setFgain1 _ => [0x43#7, 0x03#7]
  | .setFgain2 _ => [0x45#7, 0x05#7]
  | .setOffs1 _ _ => [0x44#7, 0x04#7]
  | .setOffs2 _ _ => [0x46#7, 0x06#7]
  | .setBias _ => [0x47#7, 0x07#7]
  | .setSubaddr _ => [0x40#7, 0x00#7]
  | .rdreg _ => []
  | .rdmsk _ _ => []
  | .crc _ _ _ => []
  | .getVdd => []
  | .getOutmode => []
  | .getAgc => []
  | .getGain => []
  | .getBoost => []
  | .getFgain1 => []
  | .getFgain2 => []
  | .getOffs1 => []
  | .getOffs2 => []
  | .getBias => []
  | .getSubaddr => []
  | .getTxfreq => []
  | .getpGain => []
  | .getpFgain1 => []
  | .getpFgain2 => []
  | .getpOffs1 => []
  | .getpOffs2 => []
  | .getpBias => []
  | .getpTxfreq => []

end Sys2Proof.Machine
end

