-- ==== Sys2Proof/Certificates/Slice0/Obligations.lean ====
section
/-! DEFINITION. The statements for the provers. -/

open Sys2Proof Sys2Proof.Machine

/-! ### CRC Engine -/

/-- 40_crc.md rules R80 and R83: the remainder is below 2^n, and the final mask changes nothing. -/
def Obligations.CrcIsTheUnmaskedRemainderBelowTwoToTheN : Prop :=
  ∀ word poly filler : Nat, 1 ≤ poly →
    crc word poly filler < 2 ^ (bitlen poly - 1) ∧
    crc word poly filler =
      divLoop poly (bitlen ((word <<< (bitlen poly - 1)) ||| filler)) ((word <<< (bitlen poly - 1)) ||| filler) ∧
    bitlen 0b1011 = 4 ∧ bitlen 0b1011 - 1 = 3

/-- 40_crc.md section 1 (termination, an inference the spec marks as derived from its loop): each pass shortens the working value; `bitlen(W) - n` passes end the loop and more change
nothing; none is made when `bitlen(W) <= n`; a word of `ww` bits with a filler below 2^n takes at most `ww`. -/
def Obligations.DivisionLoopTerminatesWithinItsBound : Prop :=
  ∀ poly w : Nat, 1 ≤ poly →
    (bitlen poly - 1 < bitlen w → bitlen (divPass poly w) < bitlen w) ∧
    (∀ fuel, bitlen w - (bitlen poly - 1) ≤ fuel →
      bitlen (divLoop poly fuel w) ≤ bitlen poly - 1 ∧
      divLoop poly fuel w = divLoop poly (bitlen w - (bitlen poly - 1)) w) ∧
    (bitlen w ≤ bitlen poly - 1 → ∀ fuel, divLoop poly fuel w = w) ∧
    (∀ ww word filler, word < 2 ^ ww → filler < 2 ^ (bitlen poly - 1) →
      bitlen (workValue word poly filler) - (bitlen poly - 1) ≤ ww)

/-- 40_crc.md section 1 (algebraic form, marked derived by the spec): `crc` is the unique value of at most `n` bits that differs from the working
value by a GF(2) multiple of the polynomial. -/
def Obligations.CrcIsTheUniqueGfTwoRemainder : Prop :=
  ∀ word poly filler : Nat, 1 ≤ poly →
    (bitlen (crc word poly filler) ≤ bitlen poly - 1 ∧
      ∃ ks, ((word <<< (bitlen poly - 1)) ||| filler) ^^^ crc word poly filler = xorShifts poly ks) ∧
    ∀ r, bitlen r ≤ bitlen poly - 1 →
      (∃ ks, ((word <<< (bitlen poly - 1)) ||| filler) ^^^ r = xorShifts poly ks) → r = crc word poly filler

/-- 40_crc.md section 1 (the laws of the algebraic form, marked derived by the spec), all for fillers below
2^n. -/
def Obligations.CrcLinearityLaws : Prop :=
  ∀ poly : Nat, 1 ≤ poly →
    (∀ a b f₁ f₂, f₁ < 2 ^ (bitlen poly - 1) → f₂ < 2 ^ (bitlen poly - 1) →
      crc (a ^^^ b) poly (f₁ ^^^ f₂) = crc a poly f₁ ^^^ crc b poly f₂) ∧
    crc 0 poly 0 = 0 ∧
    (∀ w f, f < 2 ^ (bitlen poly - 1) → crc w poly f = crc w poly 0 ^^^ f) ∧
    (∀ n w f, f < 2 ^ n → crc w (2 ^ n) f = f)

/-- 40_crc.md section 1 (encoder and validator): the code formed with filler 0 validates, and (the converse, marked
derived by the spec) it is the only one of the 2^n codes that does. -/
def Obligations.CheckCodeValidatesAndIsUnique : Prop :=
  ∀ word poly : Nat, 1 ≤ poly →
    crc word poly (crc word poly 0) = 0 ∧
    ∀ f, f < 2 ^ (bitlen poly - 1) → (crc word poly f = 0 ↔ f = crc word poly 0)

/-- 40_crc.md section 2 (bit-serial form, marked derived by the spec): the bit-serial form is the same function, and leading zero bits of the working value may be
fed as well. -/
def Obligations.BitSerialFormComputesCrc : Prop :=
  ∀ word poly filler : Nat, 1 ≤ poly →
    crcSerial word poly filler = crc word poly filler ∧
    ∀ extra, serialLoop poly (workValue word poly filler) (bitlen (workValue word poly filler) + extra) 0 =
      crc word poly filler

/-- 40_crc.md section 1 (degenerate inputs (b) to (e), marked derived by the spec): polynomial 1, a power of two, a wide filler by the formula, word 0. -/
def Obligations.CrcOnDegenerateInputs : Prop :=
  (∀ w f, crc w 1 f = 0) ∧
  (∀ n w f, 1 ≤ n → crc w (2 ^ n) f = ((w <<< n) ||| f) % 2 ^ n) ∧
  (∀ w poly f, 1 ≤ poly →
    crc w poly f = crc (((w <<< (bitlen poly - 1)) ||| f) >>> (bitlen poly - 1)) poly (f % 2 ^ (bitlen poly - 1))) ∧
  crc 1 0b1011 8 = 3 ∧ crc 1 0b1011 0 = 3 ∧
  (∀ poly f, 1 ≤ poly → f < 2 ^ (bitlen poly - 1) → crc 0 poly f = f)

/-- 40_crc.md section 2 (worked division, marked derived by the spec): the worked division, pass by pass, and its validation. -/
def Obligations.WorkedDivisionOfTheSpec : Prop :=
  workValue 0b1101 0b1011 0 = 0b1101000 ∧
  divPass 0b1011 0b1101000 = 0b0110000 ∧ divPass 0b1011 0b110000 = 0b011100 ∧
  divPass 0b1011 0b11100 = 0b01010 ∧ divPass 0b1011 0b1010 = 0b0001 ∧
  crc 0b1101 0b1011 0 = 1 ∧
  workValue 0b1101 0b1011 1 = 0b1101001 ∧
  divPass 0b1011 0b1101001 = 0b110001 ∧ divPass 0b1011 0b110001 = 0b11101 ∧
  divPass 0b1011 0b11101 = 0b1011 ∧ divPass 0b1011 0b1011 = 0b0 ∧
  crc 0b1101 0b1011 1 = 0

/-- 40_crc.md rule R91: the operation CRC answers the engine's value, touching nothing else; with a polynomial of
0 it is illegal. -/
def Obligations.CrcOperationResult : Prop :=
  ∀ (s : State) (word : BitVec 24) (poly fill : BitVec 8),
    (poly ≠ 0#8 → ∀ r : Word16, r.toNat = crc word.toNat poly.toNat fill.toNat →
      r.toNat < 2 ^ 7 ∧
      exec (.crc word poly fill) s = .next (s.outcome s.bus s.regs [] 0#3 (some r) none none)) ∧
    (poly ≠ 0#8 → ∃ r : Word16, r.toNat = crc word.toNat poly.toNat fill.toNat) ∧
    (poly = 0#8 →
      exec (.crc word poly fill) s = .next (s.outcome s.bus s.regs [] 5#3 none none none)) ∧
    exec (.crc 0x020602#24 0b1011#8 0#8) s = .next (s.outcome s.bus s.regs [] 0#3 (some 1#16) none none) ∧
    exec (.crc 0x020602#24 0b1011#8 1#8) s = .next (s.outcome s.bus s.regs [] 0#3 (some 0#16) none none)

/-! ### Frames -/

/-- 30_encoding.md rule R53: the read-side canonical word, bit range by bit range, with the rule's examples. -/
def Obligations.ReadSideCanonicalWord : Prop :=
  (∀ p : Payload,
    (canon p).extractLsb' 8 8 = p.extractLsb' 3 8 ∧ (canon p).extractLsb' 3 5 = 0#5 ∧
    (canon p).extractLsb' 0 3 = p.extractLsb' 0 3 ∧
    (canon p).toNat = ((p.toNat &&& 0x7F8) <<< 5) ||| (p.toNat &&& 0x007)) ∧
  canon 0x032#11 = 0x0602#16 ∧ canon 0x7FF#11 = 0xFF07#16 ∧ canon 0x555#11 = 0xAA05#16

/-- 30_encoding.md rule R54: the write-side canonical word is the address above the read-side one, with the rule's
examples. -/
def Obligations.WriteSideCanonicalWord : Prop :=
  (∀ (a : Addr) (v : Payload),
    (wrword a v).toNat = ((a.toNat &&& 0x7F) <<< 16) ||| (canon v).toNat ∧
    (wrword a v).extractLsb' 16 7 = a ∧ (wrword a v).extractLsb' 0 16 = canon v) ∧
  wrword 0x02#7 0x032#11 = 0x020602#23 ∧ wrword 0x42#7 0x032#11 = 0x420602#23 ∧
  wrword 0x00#7 0x7FF#11 = 0x00FF07#23

/-- 30_encoding.md rule R51: the frame WRREG sends, its parts, and its bytes. -/
def Obligations.WriteFrameAssembly : Prop :=
  ∀ (poly : BitVec 4) (a : Addr) (v : Payload), poly.getLsbD 3 = true →
    crc (wrword a v).toNat poly.toNat 0 < 2 ^ 3 ∧
    (writeFrame poly a v).toNat = (v.toNat <<< 5) ||| 0x18 ||| crc (wrword a v).toNat poly.toNat 0 ∧
    (writeFrame poly a v).extractLsb' 5 11 = v ∧ (writeFrame poly a v).extractLsb' 3 2 = 0b11#2 ∧
    (frameBytes (writeFrame poly a v)).1.toNat = (writeFrame poly a v).toNat >>> 8 ∧
    (frameBytes (writeFrame poly a v)).2.toNat = (writeFrame poly a v).toNat &&& 0xFF

/-- 30_encoding.md rule R52: a received frame is its two bytes, the first one high; two frames that differ only in
bits 4 and 3 have the same payload and are both valid or both not. -/
def Obligations.ReadFrameSplitIgnoresTheMarker : Prop :=
  (∀ b0 b1 : Byte, (frameOfBytes (b0, b1)).toNat = (b0.toNat <<< 8) ||| b1.toNat) ∧
  (∀ f : Frame, (frameCheck f).toNat = f.toNat &&& 0x7 ∧ (framePayload f).toNat = f.toNat >>> 5) ∧
  (∀ (poly : BitVec 4) (f g : Frame), f ||| 0x18#16 = g ||| 0x18#16 →
    framePayload f = framePayload g ∧ frameValid poly f = frameValid poly g)

/-- 41_regcodec.md rule R105: a frame is valid exactly when the remainder is zero, exactly when its check code is
the one of its payload. The canonical word can be taken from the frame itself (30_encoding.md section 1, marked
derived by the spec). -/
def Obligations.FrameValidIffItsCheckCodeIsItsPayloads : Prop :=
  ∀ (poly : BitVec 4) (f : Frame), poly.getLsbD 3 = true →
    (frameValid poly f = true ↔ crc (canon (f.extractLsb' 5 11)).toNat poly.toNat (f.toNat &&& 0x7) = 0) ∧
    (frameValid poly f = true ↔ f.toNat &&& 0x7 = crc (canon (f.extractLsb' 5 11)).toNat poly.toNat 0) ∧
    canon (f.extractLsb' 5 11) = (f &&& 0xFF00#16) ||| ((f >>> 5) &&& 0x7#16)

/-- 41_regcodec.md (validity of a received frame, marked derived by the spec): with the generator 0b1011 no single changed bit among frame bits 15 to 5 and 2 to 0
goes undetected. -/
def Obligations.SingleBitErrorsAreDetected : Prop :=
  ∀ (f : Frame) (i : Fin 16), i ≠ 3 → i ≠ 4 → frameValid 0b1011#4 f = true →
    frameValid 0b1011#4 (f ^^^ (1#16 <<< i.val)) = false

/-- 20_memory.md rule R42: what the reference target sends for a payload, with any marker, is a valid frame of that
payload. -/
def Obligations.ReferenceFrameIsValid : Prop :=
  ∀ (poly : BitVec 4) (p : Payload) (x : BitVec 2), poly.getLsbD 3 = true →
    frameValid poly (readFrame poly p x) = true ∧ framePayload (readFrame poly p x) = p ∧
    (readFrame poly p x).extractLsb' 3 2 = x

/-- 41_regcodec.md (WRREG's corner case, marked derived by the spec; 90_conflicts.md C4): a frame as written is a valid read frame exactly
when the address alone has remainder 0. -/
def Obligations.WrittenFrameIsValidToReadExactlyWhenTheAddressVanishes : Prop :=
  ∀ (poly : BitVec 4) (a : Addr) (v : Payload), poly.getLsbD 3 = true →
    (frameValid poly (writeFrame poly a v) = true ↔ crc (a.toNat <<< 16) poly.toNat 0 = 0)

/-! ### Register Codec -/

/-- 41_regcodec.md rule R100 on a bus that answers anything: a fault ends it TRANSPORT, a nonzero remainder
INTEGRITY, a zero remainder gives the payload. -/
def Obligations.ReadRegisterOutcome : Prop :=
  ∀ (s : State) (a : Addr), s.FourBitPoly →
    (∀ c, s.reply.fault = some c →
      exec (.rdreg a) s =
        .next (s.outcome s.turn.bus s.turn.regs [.rdFault a c] 3#3 none none (some c))) ∧
    (s.reply.fault = none → ∀ b0 b1, s.incoming a = (b0, b1) →
      (s.remainder (b0 ++ b1) ≠ 0 →
        exec (.rdreg a) s = .next (s.outcome s.turn.bus s.turn.regs [.rd a b0 b1] 1#3 none none none)) ∧
      (s.remainder (b0 ++ b1) = 0 →
        exec (.rdreg a) s =
          .next (s.outcome s.turn.bus s.turn.regs [.rd a b0 b1] 0#3
            (some ((b0 ++ b1 : Frame) >>> 5)) none none)))

/-- 41_regcodec.md rule R101 on a bus that answers anything: the frame sent, the trace, the response. What the
register holds afterwards is the model's choice (log 10): what the reply says, and where it says nothing the
payload sent or, after a fault, the old one; 60_exceptions.md rule R202 says only that it is unknown after a
fault. -/
def Obligations.WriteRegisterOutcome : Prop :=
  ∀ (s : State) (a : Addr) (v : Payload) (f : Frame), s.FourBitPoly →
    f.toNat = (v.toNat <<< 5) ||| 0x18 ||| crc (wrword a v).toNat s.cfg.crcPoly.toNat 0 →
    (∀ c, s.reply.fault = some c →
      exec (.wrreg a v) s =
        .next (s.outcome s.turn.bus (Memory.write s.turn.regs a.toNat (s.reply.stored.getD (s.turn.reg a)))
          [.wrFault a (f.extractLsb' 8 8) (f.extractLsb' 0 8) c] 3#3 none none (some c))) ∧
    (s.reply.fault = none →
      exec (.wrreg a v) s =
        .next (s.outcome s.turn.bus (Memory.write s.turn.regs a.toNat (s.reply.stored.getD v))
          [.wr a (f.extractLsb' 8 8) (f.extractLsb' 0 8)] 0#3 none none none))

/-- 41_regcodec.md rule R102 as an expansion (30_encoding.md rule R64): RDMSK is RDREG, then the field at the lowest
set bit of the mask; an error of RDREG is RDMSK's. That a zero mask ends ILLEGAL in `exec` too is the model's choice (log 19): the spec refuses
it at decode. -/
def Obligations.MaskedReadIsReadThenSelect : Prop :=
  ∀ (s u : State) (a : Addr) (m : Payload), exec (.rdreg a) s = .next u →
    (m ≠ 0#11 → u.status ≠ some 0#3 → exec (.rdmsk a m) s = .next u) ∧
    (∀ (p : Payload) (k : Nat), m.getLsbD k = true → (∀ j, j < k → m.getLsbD j = false) →
      u.status = some 0#3 → u.result = some (p.setWidth 16) →
      exec (.rdmsk a m) s = .next { u with result := some (((p &&& m) >>> k).setWidth 16) }) ∧
    (m = 0#11 → exec (.rdmsk a m) s = .next (s.outcome s.bus s.regs [] 5#3 none none none))

/-- 41_regcodec.md rule R103 as an expansion (30_encoding.md rule R64): WRMSK is RDREG, a merge, and WRREG; an error
of the read half is WRMSK's, and then nothing is written. -/
def Obligations.MaskedWriteIsReadMergeWrite : Prop :=
  ∀ (s u : State) (a : Addr) (v m : Payload), exec (.rdreg a) s = .next u →
    (u.status ≠ some 0#3 → exec (.wrmsk a v m) s = .next u) ∧
    (∀ p : Payload, u.status = some 0#3 → u.result = some (p.setWidth 16) →
      exec (.wrmsk a v m) s = exec (.wrreg a ((p &&& ~~~m) ||| (v &&& m))) u)

/-- 41_regcodec.md rules R100 to R103 against the reference target of 20_memory.md rule R42: each of the four
operations completes, with its result, its trace and REG afterwards. -/
def Obligations.RegisterCodecOnTheReferenceTarget : Prop :=
  ∀ (s : State) (a : Addr) (v m : Payload), s.ReferenceBus → s.FourBitPoly →
    exec (.rdreg a) s =
      .next (s.outcome (s.bus.drop 1) s.regs
        [readEvent a (readFrame s.cfg.crcPoly (s.reg a) (s.replyAt 0).marker)]
        0#3 (some ((s.reg a).setWidth 16)) none none) ∧
    exec (.wrreg a v) s =
      .next (s.outcome (s.bus.drop 1) (Memory.write s.regs a.toNat v)
        [writeEvent a (writeFrame s.cfg.crcPoly a v)] 0#3 none none none) ∧
    (∀ k, m.getLsbD k = true → (∀ j, j < k → m.getLsbD j = false) →
      exec (.rdmsk a m) s =
        .next (s.outcome (s.bus.drop 1) s.regs
          [readEvent a (readFrame s.cfg.crcPoly (s.reg a) (s.replyAt 0).marker)]
          0#3 (some (((s.reg a &&& m) >>> k).setWidth 16)) none none)) ∧
    exec (.wrmsk a v m) s =
      .next (s.outcome (s.bus.drop 2)
        (Memory.write s.regs a.toNat ((s.reg a &&& ~~~m) ||| (v &&& m)))
        [readEvent a (readFrame s.cfg.crcPoly (s.reg a) (s.replyAt 0).marker),
          writeEvent a (writeFrame s.cfg.crcPoly a ((s.reg a &&& ~~~m) ||| (v &&& m)))]
        0#3 none none none)

/-- 20_memory.md rule R38, 70_reset_and_hazards.md rule R226: a store of another master between the two halves of a
masked write is lost outside the mask: the old bits are written back. -/
def Obligations.MaskedWriteOverwritesAStoreBetweenItsHalves : Prop :=
  ∀ (s t : State) (a : Addr) (v m q : Payload) (r₀ r₁ : Reply) (rest : List Reply), s.FourBitPoly →
    s.bus = r₀ :: { r₁ with others := [(a, q)] } :: rest → r₀.isReference → r₁.isReference →
    exec (.wrmsk a v m) s = .next t →
    t.status = some 0#3 ∧ t.reg a = (s.reg a &&& ~~~m) ||| (v &&& m) ∧ ∀ b, b ≠ a → t.reg b = s.reg b

/-- The frame of REG on a bus with no other master, whatever else it answers: an operation leaves every register it
does not store to as it was (41_regcodec.md rules R101 and R103, 42_field_setters.md rule R120, 43_field_getters.md
rule R150: a getter never writes). -/
def Obligations.OnlyAddressedRegistersChange : Prop :=
  ∀ (i : Instr) (s t : State), s.SingleMaster → exec i s = .next t →
    ∀ b, b ∉ stores i → t.reg b = s.reg b

/-! ### Setters -/

/-- 30_encoding.md rules R59 and R61: the field map, row by row; the opcode byte of every one of the 35 operations,
as it is encoded and as it is decoded; and the field index in the low nibble of the encoded opcodes, 0x1_ for the
setters, 0x2_ for the raw and 0x3_ for the physical getters. -/
def Obligations.FieldMapAgreesWithItsTable : Prop :=
  (∀ r ∈ fieldMap, r.1.index = r.2.1 ∧ r.1.primary = r.2.2.1 ∧ r.1.mirrored = r.2.2.2.1 ∧
    r.1.mask = r.2.2.2.2.1 ∧ r.1.shift = r.2.2.2.2.2.1 ∧ r.1.width = r.2.2.2.2.2.2 ∧
    (r.1.mirrored = true → r.1.shadow = r.1.primary ||| 0x40#7)) ∧
  (∀ (v sign : Word16) (k : Nat) (row : SetterRow), (setterRows v sign)[k]? = some row →
    (encode row.instr).extractLsb' 40 8 = 0x10#8 + BitVec.ofNat 8 k) ∧
  (∀ (k : Nat) (g : GetterRow), getterRows[k]? = some g →
    (encode g.instr).extractLsb' 40 8 = 0x20#8 + BitVec.ofNat 8 k) ∧
  (∀ p ∈ physicalFields, (encode p.1).extractLsb' 40 8 = 0x3#4 ++ p.2.index) ∧
  (∀ i : Instr, (encode i).extractLsb' 40 8 = i.opcode) ∧
  (∀ (w : Command) (i : Instr), decode w = .ok i → w.extractLsb' 40 8 = i.opcode)

/-- 42_field_setters.md rule R121: an operand outside the domain gives RANGE with an empty trace, whatever the bus
would have done. -/
def Obligations.SetterRejectsOutOfDomainBeforeTheBus : Prop :=
  ∀ (s : State) (v sign : Word16), ∀ row ∈ setterRows v sign, row.legal = false →
    exec row.instr s = .next (s.outcome s.bus s.regs [] 2#3 none none none)

/-- 42_field_setters.md rules R120 and R122 to R132, 30_encoding.md rule R64, on a bus that answers anything: a
setter out of its domain ends RANGE; one in its domain is WRMSK at the shadow register, a delay, WRMSK at the
primary register, a delay; the first error ends it, with no delay after it. -/
def Obligations.SetterIsTwoDelayedMaskedWrites : Prop :=
  ∀ (s : State) (v sign : Word16), ∀ row ∈ setterRows v sign,
    (row.legal = false → exec row.instr s = .next (s.outcome s.bus s.regs [] 2#3 none none none)) ∧
    (row.legal = true → ∀ u, exec (.wrmsk row.shadow row.val row.mask) s = .next u →
      (u.status ≠ some 0#3 → exec row.instr s = .next u) ∧
      (u.status = some 0#3 → ∀ w,
        exec (.wrmsk row.primary row.val row.mask) { u with trace := u.trace ++ [.dly] } = .next w →
        (w.status ≠ some 0#3 → exec row.instr s = .next w) ∧
        (w.status = some 0#3 → exec row.instr s = .next { w with trace := w.trace ++ [.dly] })))

/-- 42_field_setters.md rules R120 and R122 to R132 against the reference target: a setter in its domain completes
with the six events and both registers updated inside the mask. -/
def Obligations.SetterOnTheReferenceTarget : Prop :=
  ∀ (s : State) (v sign : Word16), ∀ row ∈ setterRows v sign, row.legal = true →
    s.ReferenceBus → s.FourBitPoly →
    exec row.instr s =
      .next (s.outcome (s.bus.drop 4)
        (Memory.write
          (Memory.write s.regs row.shadow.toNat ((s.reg row.shadow &&& ~~~row.mask) ||| (row.val &&& row.mask)))
          row.primary.toNat ((s.reg row.primary &&& ~~~row.mask) ||| (row.val &&& row.mask)))
        [readEvent row.shadow (readFrame s.cfg.crcPoly (s.reg row.shadow) (s.replyAt 0).marker),
          writeEvent row.shadow (writeFrame s.cfg.crcPoly row.shadow
            ((s.reg row.shadow &&& ~~~row.mask) ||| (row.val &&& row.mask))),
          .dly,
          readEvent row.primary (readFrame s.cfg.crcPoly (s.reg row.primary) (s.replyAt 2).marker),
          writeEvent row.primary (writeFrame s.cfg.crcPoly row.primary
            ((s.reg row.primary &&& ~~~row.mask) ||| (row.val &&& row.mask))),
          .dly]
        0#3 none none none)

/-- 60_exceptions.md section 3 (device state after a failed operation, marked derived by the spec), the setters'
rows below the range check: which copy is unchanged, which is updated,
and how many delays were done, when transaction `k` (0 to 3) is the first to fail with TRANSPORT. -/
def Obligations.SetterStateAfterATransportFault : Prop :=
  ∀ (s t : State) (v sign : Word16) (c : Cause) (k : Nat), ∀ row ∈ setterRows v sign, row.legal = true →
    s.FourBitPoly → k < 4 → (∀ j, j < k → (s.replyAt j).isReference) →
    (s.replyAt k).fault = some c → (s.replyAt k).others = [] →
    exec row.instr s = .next t →
    t.status = some 3#3 ∧ t.tcause = some c ∧
    (k = 0 → t.reg row.shadow = s.reg row.shadow) ∧
    (2 ≤ k → t.reg row.shadow = (s.reg row.shadow &&& ~~~row.mask) ||| (row.val &&& row.mask)) ∧
    (k ≤ 2 → t.reg row.primary = s.reg row.primary) ∧
    ∃ es, t.trace = s.trace ++ es ∧ es.count .dly = k / 2

/-- 60_exceptions.md section 3 (marked derived by the spec), the same for an invalid frame: read 0 is the shadow's, read 2 the primary's. -/
def Obligations.SetterStateAfterAnInvalidFrame : Prop :=
  ∀ (s t : State) (v sign : Word16) (b0 b1 : Byte) (k : Nat), ∀ row ∈ setterRows v sign, row.legal = true →
    s.FourBitPoly → (k = 0 ∨ k = 2) → (∀ j, j < k → (s.replyAt j).isReference) →
    (s.replyAt k).fault = none → (s.replyAt k).others = [] → (s.replyAt k).bytes = some (b0, b1) →
    s.remainder (b0 ++ b1) ≠ 0 →
    exec row.instr s = .next t →
    t.status = some 1#3 ∧ t.tcause = none ∧
    (k = 0 → t.reg row.shadow = s.reg row.shadow) ∧
    (k = 2 → t.reg row.shadow = (s.reg row.shadow &&& ~~~row.mask) ||| (row.val &&& row.mask)) ∧
    t.reg row.primary = s.reg row.primary ∧
    ∃ es, t.trace = s.trace ++ es ∧ es.count .dly = k / 2

/-- 42_field_setters.md section 3 (round trip, in the spec's terms marked derived) against the reference target:
after a setter its getter returns the operand, and
in both registers every bit outside the mask is as before. -/
def Obligations.SetterThenGetterReturnsTheOperand : Prop :=
  ∀ (s : State) (v sign : Word16), s.ReferenceBus → s.FourBitPoly →
    (∀ p ∈ (setterRows v sign).zip (roundTrips v sign), p.1.legal = true →
      p.1.instr = p.2.1 ∧
      ∃ t u, exec p.2.1 s = .next t ∧ t.status = some 0#3 ∧
        exec p.2.2.1 t = .next u ∧ u.status = some 0#3 ∧ u.result = some p.2.2.2 ∧
        t.reg p.1.shadow &&& ~~~p.1.mask = s.reg p.1.shadow &&& ~~~p.1.mask ∧
        t.reg p.1.primary &&& ~~~p.1.mask = s.reg p.1.primary &&& ~~~p.1.mask)

/-- 42_field_setters.md section 3 (fields sharing registers, marked derived by the spec) against the reference
target: no setter changes what another field's getter
returns. -/
def Obligations.SettersLeaveEveryOtherFieldAlone : Prop :=
  ∀ (s t : State) (v sign : Word16) (i j : Nat) (row : SetterRow) (g : GetterRow),
    s.ReferenceBus → s.FourBitPoly →
    (setterRows v sign)[i]? = some row → getterRows[j]? = some g → i ≠ j →
    exec row.instr s = .next t →
    ∃ u w r, exec g.instr s = .next u ∧ exec g.instr t = .next w ∧
      u.status = some 0#3 ∧ w.status = some 0#3 ∧ u.result = some r ∧ w.result = some r

/-- 70_reset_and_hazards.md rules R224 and R225, on a bus that answers anything: every write a setter completes is
followed at once by the settling delay, a setter that completes made two; no other operation delays. -/
def Obligations.OnlySettersDelayAndTheyAlwaysDo : Prop :=
  (∀ (s t : State) (v sign : Word16), ∀ row ∈ setterRows v sign, exec row.instr s = .next t →
    ∃ es, t.trace = s.trace ++ es ∧ delaysKept es = true ∧ (t.status = some 0#3 → es.count .dly = 2)) ∧
  (∀ (s t : State) (i : Instr), (∀ v sign, ∀ row ∈ setterRows v sign, i ≠ row.instr) → exec i s = .next t →
    ∃ es, t.trace = s.trace ++ es ∧ Event.dly ∉ es)

/-! ### Getters -/

/-- 43_field_getters.md rules R150 to R162 on a bus that answers anything: a raw getter whose read faults ends
TRANSPORT, one whose frame has a nonzero remainder INTEGRITY, and one whose frame has remainder 0 completes with
the bits of its field (for AGC the enable, inverted). -/
def Obligations.RawGetterResult : Prop :=
  ∀ s : State, s.FourBitPoly → ∀ g ∈ getterRows,
    (∀ c, s.reply.fault = some c →
      exec g.instr s = .next (s.outcome s.turn.bus s.turn.regs [.rdFault g.addr c] 3#3 none none (some c))) ∧
    (s.reply.fault = none → ∀ b0 b1, s.incoming g.addr = (b0, b1) →
      (s.remainder (b0 ++ b1) ≠ 0 →
        exec g.instr s = .next (s.outcome s.turn.bus s.turn.regs [.rd g.addr b0 b1] 1#3 none none none)) ∧
      (s.remainder (b0 ++ b1) = 0 →
        exec g.instr s =
          .next (s.outcome s.turn.bus s.turn.regs [.rd g.addr b0 b1] 0#3
            (some (g.result ((b0 ++ b1 : Frame).extractLsb' 5 11))) none none)))

/-- 43_field_getters.md rules R165 to R170 on a bus that answers anything: a physical getter whose read faults ends
TRANSPORT, one whose frame has a nonzero remainder INTEGRITY, and one whose frame has remainder 0 completes with
the raw code and the rounded physical value; the rounding is the identity for the exact format (rule R171). -/
def Obligations.PhysicalGetterResult : Prop :=
  (∀ s : State, s.FourBitPoly → ∀ g ∈ physicalRows,
    (∀ c, s.reply.fault = some c →
      exec g.instr s = .next (s.outcome s.turn.bus s.turn.regs [.rdFault g.addr c] 3#3 none none (some c))) ∧
    (s.reply.fault = none → ∀ b0 b1, s.incoming g.addr = (b0, b1) →
      (s.remainder (b0 ++ b1) ≠ 0 →
        exec g.instr s = .next (s.outcome s.turn.bus s.turn.regs [.rd g.addr b0 b1] 1#3 none none none)) ∧
      (s.remainder (b0 ++ b1) = 0 →
        exec g.instr s =
          .next (s.outcome s.turn.bus s.turn.regs [.rd g.addr b0 b1] 0#3
            (some (g.result ((b0 ++ b1 : Frame).extractLsb' 5 11)))
            (some (rnd s.cfg.physFmt (g.phys s.cfg ((b0 ++ b1 : Frame).extractLsb' 5 11)))) none)))) ∧
  ∀ q, rnd .exact q = q

/-- 43_field_getters.md rule R164, 60_exceptions.md rule R194: GETP_GAIN gives the table's entry, without the boost,
for a stored code up to 95, and INCONSISTENT with no result for 96 to 127; the errors of its read come first. -/
def Obligations.GainGetterResultOrInconsistent : Prop :=
  ∀ s : State, s.FourBitPoly →
    (∀ c, s.reply.fault = some c →
      exec .getpGain s = .next (s.outcome s.turn.bus s.turn.regs [.rdFault 0x02#7 c] 3#3 none none (some c))) ∧
    (s.reply.fault = none → ∀ b0 b1, s.incoming 0x02#7 = (b0, b1) →
      (s.remainder (b0 ++ b1) ≠ 0 →
        exec .getpGain s = .next (s.outcome s.turn.bus s.turn.regs [.rd 0x02#7 b0 b1] 1#3 none none none)) ∧
      (s.remainder (b0 ++ b1) = 0 → ∀ code, code = ((b0 ++ b1 : Frame).extractLsb' 5 7).toNat →
        (∀ h : code < 96,
          exec .getpGain s =
            .next (s.outcome s.turn.bus s.turn.regs [.rd 0x02#7 b0 b1] 0#3 (some (BitVec.ofNat 16 code))
              (some (rnd s.cfg.physFmt s.cfg.gainTable[code])) none)) ∧
        (95 < code →
          exec .getpGain s =
            .next (s.outcome s.turn.bus s.turn.regs [.rd 0x02#7 b0 b1] 4#3 none none none))))

/-- 43_field_getters.md rule R150, 41_regcodec.md rule R102, on a bus that answers anything: whatever ends RDREG at
the register with an error ends every operation that only reads it with the same one, in the same state. -/
def Obligations.ReadersPassOnTheErrorsOfTheirRead : Prop :=
  ∀ (s u : State) (a : Addr) (m : Payload), m ≠ 0#11 → ∀ g ∈ readers a m,
    exec (.rdreg g.2) s = .next u → u.status ≠ some 0#3 → exec g.1 s = .next u

/-- 43_field_getters.md rule R150: the trace of an operation that only reads is exactly one read transaction,
successful or not, and it stores nothing. -/
def Obligations.ReadersPerformExactlyOneRead : Prop :=
  ∀ (s t : State) (a : Addr) (m : Payload), m ≠ 0#11 → ∀ g ∈ readers a m, exec g.1 s = .next t →
    t.bus = s.turn.bus ∧ t.regs = s.turn.regs ∧
    ∃ e, t.trace = s.trace ++ [e] ∧ ((∃ b0 b1, e = .rd g.2 b0 b1) ∨ ∃ c, e = .rdFault g.2 c)

/-- 43_field_getters.md rule R171 with the default scale constants: the exact values and their ranges. -/
def Obligations.ConversionsWithTheDefaultConstants : Prop :=
  ∀ cfg : Params, cfg.fgainStep = 1 / 800 → cfg.offsStep = 3 / 200000 → cfg.biasUnit = 1 / 2 →
    cfg.txfStep = 20000 →
    (∀ code, code ≤ 127 → fgain cfg code = (800 + (code : Rat)) / 800 ∧
      1 ≤ fgain cfg code ∧ fgain cfg code ≤ 927 / 800) ∧
    (∀ mag, mag ≤ 127 → offs cfg 0 mag = 3 * (mag : Rat) / 200000 ∧ offs cfg 1 mag = -(3 * (mag : Rat) / 200000) ∧
      offs cfg 0 mag ≤ 381 / 200000 ∧ -(381 / 200000) ≤ offs cfg 1 mag) ∧
    (∀ code, code ≤ 255 → 0 ≤ bias cfg code ∧ bias cfg code ≤ 2016) ∧
    (∀ code, code ≤ 2047 → 0 ≤ txf cfg code ∧ txf cfg code ≤ 40940000) ∧
    bias cfg 0xFF = 2016 ∧ bias cfg 0x04 = 2 ∧ bias cfg 0x41 = 2 ∧ txf cfg 1000 = 20000000

/-- 43_field_getters.md sections 3 and 5: the effective gain's formula (rule R172) and, inferred from it for every
table with properties (a) to (c) of rule R163, its value at code 50, 349/20 without and 349/10 with the boost, and
its growth with the code. -/
def Obligations.EffectiveGainOfAWellFormedTable : Prop :=
  ∀ cfg : Params, cfg.wf →
    (∀ i : Fin 96, effgain cfg i 0 = cfg.gainTable[i] ∧ effgain cfg i 1 = cfg.gainTable[i] * 2) ∧
    effgain cfg 50 0 = 349 / 20 ∧ effgain cfg 50 1 = 349 / 10 ∧
    ∀ (i j : Fin 96) (b : Fin 2), i < j → effgain cfg i b < effgain cfg j b

/-- 43_field_getters.md rules R164, R167, R169 and R170: the source's scenarios 1 to 4 on the reference target with
the exact format. -/
def Obligations.ScenariosOneToFourOfTheSource : Prop :=
  ∀ s : State, s.ReferenceBus → s.cfg.wf → s.cfg.physFmt = .exact → s.cfg.offsStep = 3 / 200000 →
    s.cfg.biasUnit = 1 / 2 → s.cfg.txfStep = 20000 →
    (∃ t u, exec (.setGain 50#16) s = .next t ∧ exec .getpGain t = .next u ∧
      u.status = some 0#3 ∧ u.result = some 50#16 ∧ u.phys = some (349 / 20)) ∧
    (∃ t u, exec (.setOffs1 1#16 127#16) s = .next t ∧ exec .getpOffs1 t = .next u ∧
      u.status = some 0#3 ∧ u.result = some 0xFF#16 ∧ u.phys = some (-(381 / 200000))) ∧
    (∃ t u, exec (.setBias 255#16) s = .next t ∧ exec .getpBias t = .next u ∧
      u.status = some 0#3 ∧ u.result = some 0xFF#16 ∧ u.phys = some 2016) ∧
    (s.reg 0x6E#7 = 0x3E8#11 → ∃ u, exec .getpTxfreq s = .next u ∧
      u.status = some 0#3 ∧ u.result = some 1000#16 ∧ u.phys = some 20000000)

/-! ### Every operation -/

/-- 60_exceptions.md rules R198 and R199, 30_encoding.md rule R62: every operation ends, with one status code of 0
to 5, and leaves the block idle. -/
def Obligations.EveryOperationEndsIdleWithAStatus : Prop :=
  ∀ (i : Instr) (s : State), ∃ t c, exec i s = .next t ∧ t.status = some c ∧ c ≤ 5#3 ∧ t.Idle ∧ t.ResponseOk

/-- 60_exceptions.md rule R198, errors are precise: after TRANSPORT the failing transaction is the last event and
TCAUSE is its cause; no other event of any operation is a failed transaction. -/
def Obligations.TransportErrorsArePrecise : Prop :=
  ∀ (i : Instr) (s t : State), exec i s = .next t → ∃ es, t.trace = s.trace ++ es ∧
    (t.status = some 3#3 → ∃ before e c, es = before ++ [e] ∧ e.cause = some c ∧ t.tcause = some c ∧
      ∀ x ∈ before, x.isFault = false) ∧
    (t.status ≠ some 3#3 → ∀ x ∈ es, x.isFault = false)

/-- 10_state.md rule R18, 20_memory.md rule R37: every transaction an operation performs is an event of its trace
and uses one reply of the bus, in order; there are at most four, and at most two delays. -/
def Obligations.TraceAccountsForEveryTransaction : Prop :=
  ∀ (i : Instr) (s t : State), exec i s = .next t → ∃ es, t.trace = s.trace ++ es ∧
    es.countP Event.isTransaction ≤ 4 ∧ es.count .dly ≤ 2 ∧
    t.bus = s.bus.drop (es.countP Event.isTransaction)

/-- 10_state.md rules R10 and R16, 60_exceptions.md rule R199: what an operation does does not depend on the
responses or on the transient state an earlier one left. -/
def Obligations.OperationsForgetEarlierResponses : Prop :=
  ∀ (i : Instr) (s s' : State), s'.cfg = s.cfg → s'.trace = s.trace → s'.regs = s.regs → s'.bus = s.bus →
    s'.busRest = s.busRest → s'.cmds = s.cmds → s'.cmdIdx = s.cmdIdx → s'.stopped = s.stopped →
    exec i s' = exec i s

/-- 20_memory.md rule R30, 70_reset_and_hazards.md rule R230: neither DEVADDR nor the length of DELAY enters
anything an operation computes. -/
def Obligations.DeviceAddressAndDelayLengthEnterNothing : Prop :=
  ∀ (i : Instr) (s t : State) (d : BitVec 7) (q : Rat), exec i s = .next t →
    exec i { s with cfg := { s.cfg with devAddr := d, delayMs := q } } =
      .next { t with cfg := { t.cfg with devAddr := d, delayMs := q } }

/-- 10_state.md rule R11, 60_exceptions.md rule R201, 70_reset_and_hazards.md rule R227: no operation writes the
configuration, and none touches the host's side of the port. -/
def Obligations.ConfigurationIsNeverWritten : Prop :=
  ∀ (i : Instr) (s t : State), exec i s = .next t →
    t.cfg = s.cfg ∧ t.cmds = s.cmds ∧ t.cmdIdx = s.cmdIdx ∧ t.stopped = s.stopped ∧ t.busRest = s.busRest

/-! ### The machine -/

/-- 10_state.md rules R12, R13 and R19: from any state that meets the invariant a step leads to one that does. -/
def Obligations.EveryStepKeepsTheInvariant : Prop :=
  ∀ s t : State, s.Inv → step s = .next t → t.Inv

/-- The machine right after reset meets the invariant. -/
def Obligations.ResetMeetsTheInvariant : Prop := State.reset.Inv

/-- 70_reset_and_hazards.md rule R220 (the table of 10_state.md rule R20): configuration takes its parameter values,
the block is idle, the responses hold no value, the trace is empty; REG is left to the model's choice (log 3). -/
def Obligations.ResetLeavesTheBlockIdleAndSilent : Prop :=
  State.reset.cfg = Config.params ∧ State.reset.Idle ∧ State.reset.status = none ∧ State.reset.result = none ∧
  State.reset.phys = none ∧ State.reset.tcause = none ∧ State.reset.trace = []

/-- The defaults of the table of 00_scope.md section 3, where an instance takes them; CRC_POLY's is not in the
source (log 5), the parameters without a default are free constants (logs 6, 7, 8), and the literals are unaudited
(log 18). -/
def Obligations.ResetTakesTheDefaultParameters : Prop :=
  State.reset.cfg.devAddr = Config.devAddr ∧ State.reset.cfg.delayMs = 10 ∧
  State.reset.cfg.crcPoly = 0b1011#4 ∧ State.reset.cfg.fgainStep = 1 / 800 ∧
  State.reset.cfg.offsStep = 3 / 200000 ∧ State.reset.cfg.biasUnit = 1 / 2 ∧ State.reset.cfg.txfStep = 20000 ∧
  State.reset.cfg.gainTable = Config.gainTable ∧ State.reset.cfg.physFmt = Config.physFmt ∧
  State.reset.cfg.gainTable[50] = 349 / 20

/-- 70_reset_and_hazards.md section 1, in the model's reading of a reset in any state (log 22): it changes nothing
outside the block, and the first command afterwards does exactly what it would have done, but for the trace
kept. -/
def Obligations.BlockResetTouchesNothingOutside : Prop :=
  ∀ s : State, s.blockReset.regs = s.regs ∧ s.blockReset.bus = s.bus ∧ s.blockReset.cfg = s.cfg ∧
    s.blockReset.trace = [] ∧ s.blockReset.Idle ∧
    ∀ (i : Instr) (t : State), exec i s.blockReset = .next t →
      exec i s = .next { t with trace := s.trace ++ t.trace }

/-- A step runs the decoded command and then lets the host go on or stop (10_state.md rule R15): on OK the next
command of the list and the next index, on any other status the list is presented no further. -/
def Obligations.StepRunsTheDecodedCommand : Prop :=
  ∀ (s : State) (w : Command) (rest : List Command) (i : Instr), s.busy = false → s.stopped = false →
    s.cmds = w :: rest → decode w = .ok i →
    ∃ t, exec i s = .next t ∧
      (t.status = some 0#3 → step s = .next { t with cmds := rest, cmdIdx := s.cmdIdx + 1 }) ∧
      (t.status ≠ some 0#3 → step s = .next { t with stopped := true })

/-- 30_encoding.md rule R60, 60_exceptions.md rule R195: an illegal command word is answered ILLEGAL with no
transaction, no delay and no result. -/
def Obligations.StepAnswersAnIllegalCommand : Prop :=
  ∀ (s : State) (w : Command) (rest : List Command) (e : DecodeError), s.busy = false → s.stopped = false →
    s.cmds = w :: rest → decode w = .error e →
    step s = .next { s.outcome s.bus s.regs [] 5#3 none none none with stopped := true }

/-- 10_state.md rule R15: after a status that is not OK, or with no command left, nothing more happens until the host
begins a new program; then the block accepts it (60_exceptions.md rule R199). -/
def Obligations.HostStopsAtTheFirstErrorUntilANewProgram : Prop :=
  (∀ s : State, s.busy = false → (s.stopped = true ∨ s.cmds = []) → step s = .next s) ∧
  (∀ (s t : State), s.stopped = false → s.cmds ≠ [] → step s = .next t → t.status ≠ some 0#3 →
    t.stopped = true ∧ t.cmds = s.cmds ∧ t.cmdIdx = s.cmdIdx ∧ step t = .next t) ∧
  (∀ (s : State) (w : Command) (rest : List Command), (s.present (w :: rest)).presented = some w)

/-- A well-formed operation's command word, presented next, runs that operation. -/
def Obligations.EncodedCommandRunsItsOperation : Prop :=
  ∀ (s : State) (i : Instr), i.wf = true →
    ∃ t, exec i (s.withFetchWord 48 (encode i).toNat) = .next t ∧
      step (s.withFetchWord 48 (encode i).toNat) = .next t.hostNext

/-! ### Encoding -/

/-- Decoding the command word of a well-formed operation gives it back (30_encoding.md rules R55 to R59, R65). -/
def Obligations.DecodeOfEncodeIsTheOperation : Prop :=
  ∀ i : Instr, i.wf = true → decode (encode i) = .ok i

/-- Each legal command word has one meaning: what it decodes to is well formed and is encoded by that word
alone. -/
def Obligations.EveryLegalWordIsTheEncodingOfItsOperation : Prop :=
  ∀ (w : Command) (i : Instr), decode w = .ok i → i.wf = true ∧ encode i = w

/-- 30_encoding.md rule R60 against the opcode table's own match and mask columns: a word is legal exactly when it
matches a row, and is not RDMSK with a zero mask or CRC with a zero polynomial. -/
def Obligations.LegalWordsAreThoseOfTheOpcodeTable : Prop :=
  ∀ w : Command,
    (∃ i, decode w = .ok i) ↔
      (∃ row ∈ opcodeRows, w &&& row.2 = row.1) ∧
      ¬(w.extractLsb' 40 8 = 0x03#8 ∧ w.extractLsb' 0 11 = 0#11) ∧
      ¬(w.extractLsb' 40 8 = 0x08#8 ∧ w.extractLsb' 32 8 = 0#8)

/-- Command words of the spec, one or more of each format, and the operations they stand for. -/
def Obligations.SampleCommandWordsDecode : Prop :=
  decode 0x016E00000000#48 = .ok (.rdreg 0x6E#7) ∧
  decode 0x021007FF0000#48 = .ok (.wrreg 0x10#7 0x7FF#11) ∧
  decode 0x036E000000F0#48 = .ok (.rdmsk 0x6E#7 0x0F0#11) ∧
  decode 0x040000A000F0#48 = .ok (.wrmsk 0x00#7 0x0A0#11 0x0F0#11) ∧
  decode 0x080B02060204#48 = .ok (.crc 0x020602#24 0x0B#8 0x04#8) ∧
  decode 0x1300005F0000#48 = .ok (.setGain 95#16) ∧
  decode 0x1700007F0001#48 = .ok (.setOffs1 1#16 127#16) ∧
  decode 0x2B0000000000#48 = .ok .getTxfreq ∧
  decode 0x3B0000000000#48 = .ok .getpTxfreq ∧
  decode 0x1B0000010000#48 = .error .unknownOpcode ∧
  decode 0x130100600000#48 = .error .reservedBits ∧
  decode 0x030200000000#48 = .error .zeroMask ∧
  decode 0x080000000500#48 = .error .zeroPoly
end

