-- ==== Sys2Proof/Laws/Config.lean ====
section
/-! SUPPORT. The parameter values at reset are as 00_scope.md rule R4 and 43_field_getters.md rule R163 require,
whatever the free constants are. -/

namespace Sys2Proof

theorem Config.one_lt_gainRatio (i : Nat) : 1 < Config.gainRatio i := by
  unfold Config.gainRatio
  have : (0 : Rat) < (((Config.gainStep i).1 + 1 : Nat) : Rat) / (((Config.gainStep i).2 + 1 : Nat) : Rat) := by
    positivity
  linarith

theorem Config.gainRatio_pos (i : Nat) : 0 < Config.gainRatio i :=
  lt_trans one_pos (Config.one_lt_gainRatio i)

theorem Config.gainUp_pos (k : Nat) : 0 < Config.gainUp k := by
  induction k with
  | zero => norm_num [Config.gainUp]
  | succ k ih => exact mul_pos ih (Config.gainRatio_pos _)

theorem Config.gainDown_pos (k : Nat) : 0 < Config.gainDown k := by
  induction k with
  | zero => norm_num [Config.gainDown]
  | succ k ih => exact div_pos ih (Config.gainRatio_pos _)

theorem Config.gainUp_lt (k : Nat) : Config.gainUp k < Config.gainUp (k + 1) :=
  lt_mul_of_one_lt_right (Config.gainUp_pos k) (Config.one_lt_gainRatio _)

theorem Config.gainDown_lt (k : Nat) : Config.gainDown (k + 1) < Config.gainDown k :=
  div_lt_self (Config.gainDown_pos k) (Config.one_lt_gainRatio _)

theorem Config.gainTable_get (i : Nat) (h : i < 96) :
    Config.gainTable[i] = if i < 50 then Config.gainDown (50 - i) else Config.gainUp (i - 50) := by
  simp [Config.gainTable]

theorem Config.gainTable_pos (i : Nat) (h : i < 96) : 0 < Config.gainTable[i] := by
  rw [Config.gainTable_get i h]
  split
  · exact Config.gainDown_pos _
  · exact Config.gainUp_pos _

theorem Config.gainTable_lt (i : Nat) (h : i + 1 < 96) : Config.gainTable[i] < Config.gainTable[i + 1] := by
  rw [Config.gainTable_get i (by omega), Config.gainTable_get (i + 1) h]
  rcases Nat.lt_trichotomy i 49 with hlt | rfl | hgt
  · rw [if_pos (by omega), if_pos (by omega), show 50 - i = (50 - (i + 1)) + 1 by omega]
    exact Config.gainDown_lt _
  · exact Config.gainDown_lt 0
  · rw [if_neg (by omega), if_neg (by omega), show i + 1 - 50 = (i - 50) + 1 by omega]
    exact Config.gainUp_lt _

/-- The parameter values at reset are well formed. -/
theorem Config.params_wf : Config.params.wf := by
  refine ⟨rfl, fun i => Config.gainTable_pos i.val i.isLt,
    fun i => Config.gainTable_lt i.val (by omega), ?_⟩
  exact Config.gainTable_get 50 (by omega)

end Sys2Proof
end

