-- ==== Sys2Proof/Laws/Memory.lean ====
section
/-! SUPPORT. The target's registers: reading after writing, and that every memory operation keeps the canonical
form. -/

namespace Sys2Proof.Machine

@[simp] theorem Memory.read_nil (a : Nat) : Memory.read [] a = unlisted := rfl

theorem Memory.read_cons (b : Nat) (w : Payload) (m : Memory) (a : Nat) :
    Memory.read ((b, w) :: m) a = if a = b then w else Memory.read m a := rfl

theorem Memory.read_erase_same (m : Memory) (a : Nat) : Memory.read (Memory.erase m a) a = unlisted := by
  induction m with
  | nil => rfl
  | cons c m ih =>
    obtain ⟨b, w⟩ := c
    by_cases h : a = b
    · simpa [Memory.erase, h] using (h ▸ ih)
    · simpa [Memory.erase, h, Memory.read_cons] using ih

theorem Memory.read_erase_ne (m : Memory) {a b : Nat} (h : b ≠ a) :
    Memory.read (Memory.erase m a) b = Memory.read m b := by
  induction m with
  | nil => rfl
  | cons c m ih =>
    obtain ⟨d, w⟩ := c
    by_cases hd : a = d
    · subst hd; simp [Memory.erase, Memory.read_cons, h, ih]
    · simp [Memory.erase, hd, Memory.read_cons, ih]

theorem Memory.read_insert_same (m : Memory) (a : Nat) (v : Payload) (h : Memory.read m a = unlisted)
    (hm : ∀ c ∈ m, c.1 ≠ a) : Memory.read (Memory.insert m a v) a = v := by
  induction m with
  | nil => simp [Memory.insert, Memory.read_cons]
  | cons c m ih =>
    obtain ⟨b, w⟩ := c
    have hb : a ≠ b := fun e => hm (b, w) (by simp) e.symm
    by_cases hlt : a < b
    · simp [Memory.insert, hlt, Memory.read_cons]
    · have h' : Memory.read m a = unlisted := by simpa [Memory.read_cons, hb] using h
      simpa [Memory.insert, hlt, Memory.read_cons, hb] using ih h' fun c hc => hm c (by simp [hc])

theorem Memory.read_insert_ne (m : Memory) {a b : Nat} (v : Payload) (h : b ≠ a) :
    Memory.read (Memory.insert m a v) b = Memory.read m b := by
  induction m with
  | nil => simp [Memory.insert, Memory.read_cons, h]
  | cons c m ih =>
    obtain ⟨d, w⟩ := c
    by_cases hlt : a < d
    · simp [Memory.insert, hlt, Memory.read_cons, h]
    · simp [Memory.insert, hlt, Memory.read_cons, ih]

theorem Memory.erase_keys (m : Memory) (a : Nat) : ∀ c ∈ Memory.erase m a, c.1 ≠ a := by
  induction m with
  | nil => simp [Memory.erase]
  | cons c m ih =>
    obtain ⟨b, w⟩ := c
    by_cases h : a = b
    · simp only [Memory.erase, if_pos h]
      exact ih
    · simp only [Memory.erase, if_neg h, List.mem_cons, forall_eq_or_imp]
      exact ⟨fun e => h e.symm, ih⟩

/-- A read of the register just written gives what was written. -/
@[simp] theorem Memory.read_write_same (m : Memory) (a : Nat) (v : Payload) :
    Memory.read (Memory.write m a v) a = v := by
  unfold Memory.write
  split
  · rename_i h; rw [Memory.read_erase_same, h]
  · exact Memory.read_insert_same _ _ _ (Memory.read_erase_same m a) (Memory.erase_keys m a)

/-- A write leaves every other register alone. -/
theorem Memory.read_write_ne (m : Memory) {a b : Nat} (v : Payload) (h : b ≠ a) :
    Memory.read (Memory.write m a v) b = Memory.read m b := by
  unfold Memory.write
  split
  · exact Memory.read_erase_ne m h
  · rw [Memory.read_insert_ne _ v h, Memory.read_erase_ne m h]

theorem Memory.wfFrom_cons (lo b : Nat) (w : Payload) (m : Memory) :
    Memory.wfFrom lo ((b, w) :: m) = true ↔
      lo ≤ b ∧ b < 128 ∧ w ≠ unlisted ∧ Memory.wfFrom (b + 1) m = true := by
  simp [Memory.wfFrom, and_assoc]

theorem Memory.wfFrom_mono {lo hi : Nat} (m : Memory) (h : lo ≤ hi) (hm : Memory.wfFrom hi m = true) :
    Memory.wfFrom lo m = true := by
  cases m with
  | nil => rfl
  | cons c m =>
    rw [Memory.wfFrom_cons] at hm ⊢
    exact ⟨h.trans hm.1, hm.2⟩

theorem Memory.wfFrom_erase (m : Memory) (lo a : Nat) (hm : Memory.wfFrom lo m = true) :
    Memory.wfFrom lo (Memory.erase m a) = true := by
  induction m generalizing lo with
  | nil => rfl
  | cons c m ih =>
    obtain ⟨b, w⟩ := c
    obtain ⟨h1, h2, h3, h4⟩ := (Memory.wfFrom_cons ..).1 hm
    by_cases h : a = b
    · simpa [Memory.erase, h] using Memory.wfFrom_mono _ (by omega) (h ▸ ih (b + 1) h4)
    · simp only [Memory.erase, if_neg h]
      exact (Memory.wfFrom_cons ..).2 ⟨h1, h2, h3, ih (b + 1) h4⟩

theorem Memory.wfFrom_insert (m : Memory) (lo a : Nat) (v : Payload) (hm : Memory.wfFrom lo m = true)
    (hlo : lo ≤ a) (ha : a < 128) (hv : v ≠ unlisted) (hk : ∀ c ∈ m, c.1 ≠ a) :
    Memory.wfFrom lo (Memory.insert m a v) = true := by
  induction m generalizing lo with
  | nil => exact (Memory.wfFrom_cons ..).2 ⟨hlo, ha, hv, rfl⟩
  | cons c m ih =>
    obtain ⟨b, w⟩ := c
    obtain ⟨h1, h2, h3, h4⟩ := (Memory.wfFrom_cons ..).1 hm
    have hb : b ≠ a := hk (b, w) (by simp)
    by_cases h : a < b
    · simp only [Memory.insert, if_pos h]
      exact (Memory.wfFrom_cons ..).2 ⟨hlo, ha, hv, (Memory.wfFrom_cons ..).2 ⟨h, h2, h3, h4⟩⟩
    · simp only [Memory.insert, if_neg h]
      exact (Memory.wfFrom_cons ..).2
        ⟨h1, h2, h3, ih (b + 1) h4 (by omega) fun c hc => hk c (by simp [hc])⟩

/-- A write keeps the canonical form. -/
theorem Memory.wf_write (m : Memory) (a : Nat) (v : Payload) (ha : a < 128) (hm : Memory.wf m = true) :
    Memory.wf (Memory.write m a v) = true := by
  unfold Memory.write
  split
  · exact Memory.wfFrom_erase m 0 a hm
  · rename_i h
    exact Memory.wfFrom_insert _ 0 a v (Memory.wfFrom_erase m 0 a hm) (Nat.zero_le a) ha h (Memory.erase_keys m a)

/-- Other masters' stores keep the canonical form. -/
theorem Memory.wf_land (m : Memory) (st : List (Addr × Payload)) (hm : Memory.wf m = true) :
    Memory.wf (Memory.land m st) = true := by
  induction st generalizing m with
  | nil => exact hm
  | cons c st ih => exact ih _ (Memory.wf_write m _ _ c.1.isLt hm)

/-- Below its first address a canonical memory lists nothing. -/
theorem Memory.read_of_lt {lo : Nat} {m : Memory} (hm : Memory.wfFrom lo m = true) {a : Nat} (ha : a < lo) :
    Memory.read m a = unlisted := by
  induction m generalizing lo with
  | nil => rfl
  | cons c m ih =>
    obtain ⟨b, w⟩ := c
    obtain ⟨h1, _, _, h4⟩ := (Memory.wfFrom_cons ..).1 hm
    rw [Memory.read_cons, if_neg (by omega)]
    exact ih h4 (by omega)

theorem Memory.wfFrom_ext {lo : Nat} {m m' : Memory} (hm : Memory.wfFrom lo m = true)
    (hm' : Memory.wfFrom lo m' = true) (h : ∀ a, Memory.read m a = Memory.read m' a) : m = m' := by
  induction m generalizing lo m' with
  | nil =>
    cases m' with
    | nil => rfl
    | cons c m' =>
      obtain ⟨b, w⟩ := c
      have := (Memory.wfFrom_cons ..).1 hm'
      exact absurd (h b).symm (by simpa [Memory.read_cons] using this.2.2.1)
  | cons c m ih =>
    obtain ⟨b, w⟩ := c
    obtain ⟨h1, h2, h3, h4⟩ := (Memory.wfFrom_cons ..).1 hm
    cases m' with
    | nil => exact absurd (h b) (by simpa [Memory.read_cons] using h3)
    | cons c' m' =>
      obtain ⟨b', w'⟩ := c'
      obtain ⟨h1', h2', h3', h4'⟩ := (Memory.wfFrom_cons ..).1 hm'
      have hbb : b = b' := by
        rcases Nat.lt_trichotomy b b' with hlt | he | hlt
        · have e := h b
          rw [Memory.read_cons, if_pos rfl, Memory.read_cons, if_neg (by omega),
            Memory.read_of_lt h4' (by omega)] at e
          exact absurd e h3
        · exact he
        · have e := h b'
          rw [Memory.read_cons, if_neg (by omega), Memory.read_of_lt h4 (by omega), Memory.read_cons,
            if_pos rfl] at e
          exact absurd e.symm h3'
      subst hbb
      have hw : w = w' := by simpa [Memory.read_cons] using h b
      subst hw
      congr 1
      refine ih h4 h4' fun a => ?_
      by_cases ha : a = b
      · rw [ha, Memory.read_of_lt h4 (by omega), Memory.read_of_lt h4' (by omega)]
      · simpa [Memory.read_cons, ha] using h a

/-- Canonical memories that read alike everywhere are equal data. -/
theorem Memory.wf_ext {m m' : Memory} (hm : Memory.wf m = true) (hm' : Memory.wf m' = true)
    (h : ∀ a, Memory.read m a = Memory.read m' a) : m = m' := Memory.wfFrom_ext hm hm' h

@[simp] theorem State.setReg_reg_same (s : State) (a : Addr) (v : Payload) : (s.setReg a v).reg a = v :=
  Memory.read_write_same ..

theorem State.setReg_reg_ne (s : State) {a b : Addr} (v : Payload) (h : b ≠ a) :
    (s.setReg a v).reg b = s.reg b :=
  Memory.read_write_ne _ _ fun e => h (BitVec.eq_of_toNat_eq e)

end Sys2Proof.Machine
end

