-- ==== Sys2Proof/Laws/State.lean ====
section
/-! SUPPORT. What each named update of State does to each field, and what each error writes. -/

namespace Sys2Proof.Machine

@[simp] theorem State.record_cfg (s : State) (e : Event) : (s.record e).cfg = s.cfg := rfl
@[simp] theorem State.record_busy (s : State) (e : Event) : (s.record e).busy = s.busy := rfl
@[simp] theorem State.record_phase (s : State) (e : Event) : (s.record e).phase = s.phase.map (· + 1) := rfl
@[simp] theorem State.record_tmp (s : State) (e : Event) : (s.record e).tmp = s.tmp := rfl
@[simp] theorem State.record_frm (s : State) (e : Event) : (s.record e).frm = s.frm := rfl
@[simp] theorem State.record_status (s : State) (e : Event) : (s.record e).status = s.status := rfl
@[simp] theorem State.record_result (s : State) (e : Event) : (s.record e).result = s.result := rfl
@[simp] theorem State.record_phys (s : State) (e : Event) : (s.record e).phys = s.phys := rfl
@[simp] theorem State.record_tcause (s : State) (e : Event) : (s.record e).tcause = s.tcause := rfl
@[simp] theorem State.record_trace (s : State) (e : Event) : (s.record e).trace = s.trace ++ [e] := rfl
@[simp] theorem State.record_regs (s : State) (e : Event) : (s.record e).regs = s.regs := rfl
@[simp] theorem State.record_bus (s : State) (e : Event) : (s.record e).bus = s.bus := rfl
@[simp] theorem State.record_busRest (s : State) (e : Event) : (s.record e).busRest = s.busRest := rfl
@[simp] theorem State.record_cmds (s : State) (e : Event) : (s.record e).cmds = s.cmds := rfl
@[simp] theorem State.record_cmdIdx (s : State) (e : Event) : (s.record e).cmdIdx = s.cmdIdx := rfl
@[simp] theorem State.record_stopped (s : State) (e : Event) : (s.record e).stopped = s.stopped := rfl

@[simp] theorem State.setFrm_cfg (s : State) (f : Frame) : (s.setFrm f).cfg = s.cfg := rfl
@[simp] theorem State.setFrm_busy (s : State) (f : Frame) : (s.setFrm f).busy = s.busy := rfl
@[simp] theorem State.setFrm_phase (s : State) (f : Frame) : (s.setFrm f).phase = s.phase := rfl
@[simp] theorem State.setFrm_tmp (s : State) (f : Frame) : (s.setFrm f).tmp = s.tmp := rfl
@[simp] theorem State.setFrm_frm (s : State) (f : Frame) : (s.setFrm f).frm = some f := rfl
@[simp] theorem State.setFrm_status (s : State) (f : Frame) : (s.setFrm f).status = s.status := rfl
@[simp] theorem State.setFrm_result (s : State) (f : Frame) : (s.setFrm f).result = s.result := rfl
@[simp] theorem State.setFrm_phys (s : State) (f : Frame) : (s.setFrm f).phys = s.phys := rfl
@[simp] theorem State.setFrm_tcause (s : State) (f : Frame) : (s.setFrm f).tcause = s.tcause := rfl
@[simp] theorem State.setFrm_trace (s : State) (f : Frame) : (s.setFrm f).trace = s.trace := rfl
@[simp] theorem State.setFrm_regs (s : State) (f : Frame) : (s.setFrm f).regs = s.regs := rfl
@[simp] theorem State.setFrm_bus (s : State) (f : Frame) : (s.setFrm f).bus = s.bus := rfl
@[simp] theorem State.setFrm_busRest (s : State) (f : Frame) : (s.setFrm f).busRest = s.busRest := rfl
@[simp] theorem State.setFrm_cmds (s : State) (f : Frame) : (s.setFrm f).cmds = s.cmds := rfl
@[simp] theorem State.setFrm_cmdIdx (s : State) (f : Frame) : (s.setFrm f).cmdIdx = s.cmdIdx := rfl
@[simp] theorem State.setFrm_stopped (s : State) (f : Frame) : (s.setFrm f).stopped = s.stopped := rfl

@[simp] theorem State.setTmp_cfg (s : State) (p : Payload) : (s.setTmp p).cfg = s.cfg := rfl
@[simp] theorem State.setTmp_busy (s : State) (p : Payload) : (s.setTmp p).busy = s.busy := rfl
@[simp] theorem State.setTmp_phase (s : State) (p : Payload) : (s.setTmp p).phase = s.phase := rfl
@[simp] theorem State.setTmp_tmp (s : State) (p : Payload) : (s.setTmp p).tmp = some p := rfl
@[simp] theorem State.setTmp_frm (s : State) (p : Payload) : (s.setTmp p).frm = s.frm := rfl
@[simp] theorem State.setTmp_status (s : State) (p : Payload) : (s.setTmp p).status = s.status := rfl
@[simp] theorem State.setTmp_result (s : State) (p : Payload) : (s.setTmp p).result = s.result := rfl
@[simp] theorem State.setTmp_phys (s : State) (p : Payload) : (s.setTmp p).phys = s.phys := rfl
@[simp] theorem State.setTmp_tcause (s : State) (p : Payload) : (s.setTmp p).tcause = s.tcause := rfl
@[simp] theorem State.setTmp_trace (s : State) (p : Payload) : (s.setTmp p).trace = s.trace := rfl
@[simp] theorem State.setTmp_regs (s : State) (p : Payload) : (s.setTmp p).regs = s.regs := rfl
@[simp] theorem State.setTmp_bus (s : State) (p : Payload) : (s.setTmp p).bus = s.bus := rfl
@[simp] theorem State.setTmp_busRest (s : State) (p : Payload) : (s.setTmp p).busRest = s.busRest := rfl
@[simp] theorem State.setTmp_cmds (s : State) (p : Payload) : (s.setTmp p).cmds = s.cmds := rfl
@[simp] theorem State.setTmp_cmdIdx (s : State) (p : Payload) : (s.setTmp p).cmdIdx = s.cmdIdx := rfl
@[simp] theorem State.setTmp_stopped (s : State) (p : Payload) : (s.setTmp p).stopped = s.stopped := rfl

@[simp] theorem State.turn_cfg (s : State) : (s.turn).cfg = s.cfg := rfl
@[simp] theorem State.turn_busy (s : State) : (s.turn).busy = s.busy := rfl
@[simp] theorem State.turn_phase (s : State) : (s.turn).phase = s.phase := rfl
@[simp] theorem State.turn_tmp (s : State) : (s.turn).tmp = s.tmp := rfl
@[simp] theorem State.turn_frm (s : State) : (s.turn).frm = s.frm := rfl
@[simp] theorem State.turn_status (s : State) : (s.turn).status = s.status := rfl
@[simp] theorem State.turn_result (s : State) : (s.turn).result = s.result := rfl
@[simp] theorem State.turn_phys (s : State) : (s.turn).phys = s.phys := rfl
@[simp] theorem State.turn_tcause (s : State) : (s.turn).tcause = s.tcause := rfl
@[simp] theorem State.turn_trace (s : State) : (s.turn).trace = s.trace := rfl
@[simp] theorem State.turn_regs (s : State) : (s.turn).regs = Memory.land s.regs s.reply.others := rfl
@[simp] theorem State.turn_bus (s : State) : (s.turn).bus = s.bus.tail := rfl
@[simp] theorem State.turn_busRest (s : State) : (s.turn).busRest = s.busRest := rfl
@[simp] theorem State.turn_cmds (s : State) : (s.turn).cmds = s.cmds := rfl
@[simp] theorem State.turn_cmdIdx (s : State) : (s.turn).cmdIdx = s.cmdIdx := rfl
@[simp] theorem State.turn_stopped (s : State) : (s.turn).stopped = s.stopped := rfl

@[simp] theorem State.setReg_cfg (s : State) (a : Addr) (v : Payload) : (s.setReg a v).cfg = s.cfg := rfl
@[simp] theorem State.setReg_busy (s : State) (a : Addr) (v : Payload) : (s.setReg a v).busy = s.busy := rfl
@[simp] theorem State.setReg_phase (s : State) (a : Addr) (v : Payload) : (s.setReg a v).phase = s.phase := rfl
@[simp] theorem State.setReg_tmp (s : State) (a : Addr) (v : Payload) : (s.setReg a v).tmp = s.tmp := rfl
@[simp] theorem State.setReg_frm (s : State) (a : Addr) (v : Payload) : (s.setReg a v).frm = s.frm := rfl
@[simp] theorem State.setReg_status (s : State) (a : Addr) (v : Payload) : (s.setReg a v).status = s.status := rfl
@[simp] theorem State.setReg_result (s : State) (a : Addr) (v : Payload) : (s.setReg a v).result = s.result := rfl
@[simp] theorem State.setReg_phys (s : State) (a : Addr) (v : Payload) : (s.setReg a v).phys = s.phys := rfl
@[simp] theorem State.setReg_tcause (s : State) (a : Addr) (v : Payload) : (s.setReg a v).tcause = s.tcause := rfl
@[simp] theorem State.setReg_trace (s : State) (a : Addr) (v : Payload) : (s.setReg a v).trace = s.trace := rfl
@[simp] theorem State.setReg_regs (s : State) (a : Addr) (v : Payload) : (s.setReg a v).regs = Memory.write s.regs a.toNat v := rfl
@[simp] theorem State.setReg_bus (s : State) (a : Addr) (v : Payload) : (s.setReg a v).bus = s.bus := rfl
@[simp] theorem State.setReg_busRest (s : State) (a : Addr) (v : Payload) : (s.setReg a v).busRest = s.busRest := rfl
@[simp] theorem State.setReg_cmds (s : State) (a : Addr) (v : Payload) : (s.setReg a v).cmds = s.cmds := rfl
@[simp] theorem State.setReg_cmdIdx (s : State) (a : Addr) (v : Payload) : (s.setReg a v).cmdIdx = s.cmdIdx := rfl
@[simp] theorem State.setReg_stopped (s : State) (a : Addr) (v : Payload) : (s.setReg a v).stopped = s.stopped := rfl

@[simp] theorem State.delay_cfg (s : State) : (s.delay).cfg = s.cfg := rfl
@[simp] theorem State.delay_busy (s : State) : (s.delay).busy = s.busy := rfl
@[simp] theorem State.delay_phase (s : State) : (s.delay).phase = s.phase.map (· + 1) := rfl
@[simp] theorem State.delay_tmp (s : State) : (s.delay).tmp = s.tmp := rfl
@[simp] theorem State.delay_frm (s : State) : (s.delay).frm = s.frm := rfl
@[simp] theorem State.delay_status (s : State) : (s.delay).status = s.status := rfl
@[simp] theorem State.delay_result (s : State) : (s.delay).result = s.result := rfl
@[simp] theorem State.delay_phys (s : State) : (s.delay).phys = s.phys := rfl
@[simp] theorem State.delay_tcause (s : State) : (s.delay).tcause = s.tcause := rfl
@[simp] theorem State.delay_trace (s : State) : (s.delay).trace = s.trace ++ [.dly] := rfl
@[simp] theorem State.delay_regs (s : State) : (s.delay).regs = s.regs := rfl
@[simp] theorem State.delay_bus (s : State) : (s.delay).bus = s.bus := rfl
@[simp] theorem State.delay_busRest (s : State) : (s.delay).busRest = s.busRest := rfl
@[simp] theorem State.delay_cmds (s : State) : (s.delay).cmds = s.cmds := rfl
@[simp] theorem State.delay_cmdIdx (s : State) : (s.delay).cmdIdx = s.cmdIdx := rfl
@[simp] theorem State.delay_stopped (s : State) : (s.delay).stopped = s.stopped := rfl

@[simp] theorem State.accept_cfg (s : State) : (s.accept).cfg = s.cfg := rfl
@[simp] theorem State.accept_busy (s : State) : (s.accept).busy = true := rfl
@[simp] theorem State.accept_phase (s : State) : (s.accept).phase = some 0 := rfl
@[simp] theorem State.accept_tmp (s : State) : (s.accept).tmp = none := rfl
@[simp] theorem State.accept_frm (s : State) : (s.accept).frm = none := rfl
@[simp] theorem State.accept_status (s : State) : (s.accept).status = none := rfl
@[simp] theorem State.accept_result (s : State) : (s.accept).result = none := rfl
@[simp] theorem State.accept_phys (s : State) : (s.accept).phys = none := rfl
@[simp] theorem State.accept_tcause (s : State) : (s.accept).tcause = none := rfl
@[simp] theorem State.accept_trace (s : State) : (s.accept).trace = s.trace := rfl
@[simp] theorem State.accept_regs (s : State) : (s.accept).regs = s.regs := rfl
@[simp] theorem State.accept_bus (s : State) : (s.accept).bus = s.bus := rfl
@[simp] theorem State.accept_busRest (s : State) : (s.accept).busRest = s.busRest := rfl
@[simp] theorem State.accept_cmds (s : State) : (s.accept).cmds = s.cmds := rfl
@[simp] theorem State.accept_cmdIdx (s : State) : (s.accept).cmdIdx = s.cmdIdx := rfl
@[simp] theorem State.accept_stopped (s : State) : (s.accept).stopped = s.stopped := rfl

@[simp] theorem State.idle_cfg (s : State) : (s.idle).cfg = s.cfg := rfl
@[simp] theorem State.idle_busy (s : State) : (s.idle).busy = false := rfl
@[simp] theorem State.idle_phase (s : State) : (s.idle).phase = none := rfl
@[simp] theorem State.idle_tmp (s : State) : (s.idle).tmp = none := rfl
@[simp] theorem State.idle_frm (s : State) : (s.idle).frm = none := rfl
@[simp] theorem State.idle_status (s : State) : (s.idle).status = s.status := rfl
@[simp] theorem State.idle_result (s : State) : (s.idle).result = s.result := rfl
@[simp] theorem State.idle_phys (s : State) : (s.idle).phys = s.phys := rfl
@[simp] theorem State.idle_tcause (s : State) : (s.idle).tcause = s.tcause := rfl
@[simp] theorem State.idle_trace (s : State) : (s.idle).trace = s.trace := rfl
@[simp] theorem State.idle_regs (s : State) : (s.idle).regs = s.regs := rfl
@[simp] theorem State.idle_bus (s : State) : (s.idle).bus = s.bus := rfl
@[simp] theorem State.idle_busRest (s : State) : (s.idle).busRest = s.busRest := rfl
@[simp] theorem State.idle_cmds (s : State) : (s.idle).cmds = s.cmds := rfl
@[simp] theorem State.idle_cmdIdx (s : State) : (s.idle).cmdIdx = s.cmdIdx := rfl
@[simp] theorem State.idle_stopped (s : State) : (s.idle).stopped = s.stopped := rfl

@[simp] theorem State.respond_cfg (s : State) (r : Response) : (s.respond r).cfg = s.cfg := rfl
@[simp] theorem State.respond_busy (s : State) (r : Response) : (s.respond r).busy = false := rfl
@[simp] theorem State.respond_phase (s : State) (r : Response) : (s.respond r).phase = none := rfl
@[simp] theorem State.respond_tmp (s : State) (r : Response) : (s.respond r).tmp = none := rfl
@[simp] theorem State.respond_frm (s : State) (r : Response) : (s.respond r).frm = none := rfl
@[simp] theorem State.respond_status (s : State) (r : Response) : (s.respond r).status = some 0#3 := rfl
@[simp] theorem State.respond_result (s : State) (r : Response) : (s.respond r).result = r.result := rfl
@[simp] theorem State.respond_phys (s : State) (r : Response) : (s.respond r).phys = r.phys := rfl
@[simp] theorem State.respond_tcause (s : State) (r : Response) : (s.respond r).tcause = none := rfl
@[simp] theorem State.respond_trace (s : State) (r : Response) : (s.respond r).trace = s.trace := rfl
@[simp] theorem State.respond_regs (s : State) (r : Response) : (s.respond r).regs = s.regs := rfl
@[simp] theorem State.respond_bus (s : State) (r : Response) : (s.respond r).bus = s.bus := rfl
@[simp] theorem State.respond_busRest (s : State) (r : Response) : (s.respond r).busRest = s.busRest := rfl
@[simp] theorem State.respond_cmds (s : State) (r : Response) : (s.respond r).cmds = s.cmds := rfl
@[simp] theorem State.respond_cmdIdx (s : State) (r : Response) : (s.respond r).cmdIdx = s.cmdIdx := rfl
@[simp] theorem State.respond_stopped (s : State) (r : Response) : (s.respond r).stopped = s.stopped := rfl

@[simp] theorem State.raiseError_cfg (s : State) (e : Raise) : (s.raiseError e).cfg = s.cfg := rfl
@[simp] theorem State.raiseError_busy (s : State) (e : Raise) : (s.raiseError e).busy = false := rfl
@[simp] theorem State.raiseError_phase (s : State) (e : Raise) : (s.raiseError e).phase = none := rfl
@[simp] theorem State.raiseError_tmp (s : State) (e : Raise) : (s.raiseError e).tmp = none := rfl
@[simp] theorem State.raiseError_frm (s : State) (e : Raise) : (s.raiseError e).frm = none := rfl
@[simp] theorem State.raiseError_status (s : State) (e : Raise) : (s.raiseError e).status = some e.status := rfl
@[simp] theorem State.raiseError_result (s : State) (e : Raise) : (s.raiseError e).result = none := rfl
@[simp] theorem State.raiseError_phys (s : State) (e : Raise) : (s.raiseError e).phys = none := rfl
@[simp] theorem State.raiseError_tcause (s : State) (e : Raise) : (s.raiseError e).tcause = e.cause := rfl
@[simp] theorem State.raiseError_trace (s : State) (e : Raise) : (s.raiseError e).trace = s.trace := rfl
@[simp] theorem State.raiseError_regs (s : State) (e : Raise) : (s.raiseError e).regs = s.regs := rfl
@[simp] theorem State.raiseError_bus (s : State) (e : Raise) : (s.raiseError e).bus = s.bus := rfl
@[simp] theorem State.raiseError_busRest (s : State) (e : Raise) : (s.raiseError e).busRest = s.busRest := rfl
@[simp] theorem State.raiseError_cmds (s : State) (e : Raise) : (s.raiseError e).cmds = s.cmds := rfl
@[simp] theorem State.raiseError_cmdIdx (s : State) (e : Raise) : (s.raiseError e).cmdIdx = s.cmdIdx := rfl
@[simp] theorem State.raiseError_stopped (s : State) (e : Raise) : (s.raiseError e).stopped = s.stopped := rfl

@[simp] theorem State.blockReset_cfg (s : State) : (s.blockReset).cfg = s.cfg := rfl
@[simp] theorem State.blockReset_busy (s : State) : (s.blockReset).busy = false := rfl
@[simp] theorem State.blockReset_phase (s : State) : (s.blockReset).phase = none := rfl
@[simp] theorem State.blockReset_tmp (s : State) : (s.blockReset).tmp = none := rfl
@[simp] theorem State.blockReset_frm (s : State) : (s.blockReset).frm = none := rfl
@[simp] theorem State.blockReset_status (s : State) : (s.blockReset).status = none := rfl
@[simp] theorem State.blockReset_result (s : State) : (s.blockReset).result = none := rfl
@[simp] theorem State.blockReset_phys (s : State) : (s.blockReset).phys = none := rfl
@[simp] theorem State.blockReset_tcause (s : State) : (s.blockReset).tcause = none := rfl
@[simp] theorem State.blockReset_trace (s : State) : (s.blockReset).trace = [] := rfl
@[simp] theorem State.blockReset_regs (s : State) : (s.blockReset).regs = s.regs := rfl
@[simp] theorem State.blockReset_bus (s : State) : (s.blockReset).bus = s.bus := rfl
@[simp] theorem State.blockReset_busRest (s : State) : (s.blockReset).busRest = s.busRest := rfl
@[simp] theorem State.blockReset_cmds (s : State) : (s.blockReset).cmds = s.cmds := rfl
@[simp] theorem State.blockReset_cmdIdx (s : State) : (s.blockReset).cmdIdx = s.cmdIdx := rfl
@[simp] theorem State.blockReset_stopped (s : State) : (s.blockReset).stopped = s.stopped := rfl

@[simp] theorem Raise.status_integrity (a : Addr) (f : Frame) : (Raise.integrity a f).status = 1#3 := rfl
@[simp] theorem Raise.cause_integrity (a : Addr) (f : Frame) : (Raise.integrity a f).cause = none := rfl
@[simp] theorem Raise.status_range : (Raise.range).status = 2#3 := rfl
@[simp] theorem Raise.cause_range : (Raise.range).cause = none := rfl
@[simp] theorem Raise.status_transport (c : Cause) : (Raise.transport c).status = 3#3 := rfl
@[simp] theorem Raise.cause_transport (c : Cause) : (Raise.transport c).cause = some c := rfl
@[simp] theorem Raise.status_inconsistent (p : Payload) : (Raise.inconsistent p).status = 4#3 := rfl
@[simp] theorem Raise.cause_inconsistent (p : Payload) : (Raise.inconsistent p).cause = none := rfl
@[simp] theorem Raise.status_illegal : (Raise.illegal).status = 5#3 := rfl
@[simp] theorem Raise.cause_illegal : (Raise.illegal).cause = none := rfl

@[simp] theorem Res.andThen_ok {α β : Type} (x : α) (s : State) (k : α → State → Res β) :
    (Res.ok x s).andThen k = k x s := rfl
@[simp] theorem Res.andThen_err {α β : Type} (e : Raise) (s : State) (k : α → State → Res β) :
    (Res.err e s : Res α).andThen k = .err e s := rfl
@[simp] theorem Res.finish_ok (r : Response) (s : State) : (Res.ok r s).finish = s.respond r := rfl
@[simp] theorem Res.finish_err (e : Raise) (s : State) : (Res.err e s).finish = s.raiseError e := rfl

end Sys2Proof.Machine
end

