-- ==== Sys2Proof/Laws/Ops.lean ====
section
/-! SUPPORT. For each shared operation, what it answers, said once; and what every piece of pseudocode keeps. -/

namespace Sys2Proof.Machine

/-! ### Bytes and frames -/

/-- The receiver puts a frame's bytes back together (20_memory.md rule R33). -/
@[simp] theorem frameOfBytes_frameBytes (f : Frame) : frameOfBytes (frameBytes f) = f := by
  unfold frameOfBytes frameBytes
  ext i hi
  rw [BitVec.getElem_append]
  split
  · rw [BitVec.getElem_extractLsb', Nat.zero_add, BitVec.getLsbD_eq_getElem]
  · rw [BitVec.getElem_extractLsb', BitVec.getLsbD_eq_getElem (by omega)]
    congr 1
    omega

/-- The payload of an assembled frame is the payload put in (30_encoding.md rule R50). -/
@[simp] theorem framePayload_assemble (p : Payload) (m : BitVec 2) (c : BitVec 3) :
    framePayload (assemble p m c) = p := by
  unfold framePayload assemble
  ext i hi
  have h1 : ¬ (5 + i < 5) := by omega
  have h2 : 5 + i < 16 := by omega
  have h3 : c.getLsbD (5 + i) = false := BitVec.getLsbD_of_ge _ _ (by omega)
  have h4 : m.getLsbD (5 + i - 3) = false := BitVec.getLsbD_of_ge _ _ (by omega)
  simp [h2, h3, h4, hi, BitVec.getLsbD_eq_getElem]

/-- The check code of an assembled frame is the one put in (30_encoding.md rule R50). -/
@[simp] theorem frameCheck_assemble (p : Payload) (m : BitVec 2) (c : BitVec 3) :
    frameCheck (assemble p m c) = c := by
  unfold frameCheck assemble
  ext i hi
  have h2 : i < 16 := by omega
  have h5 : i < 5 := by omega
  simp [h2, h5, hi, BitVec.getLsbD_eq_getElem]

/-! ### Bus primitives -/

theorem State.memRead_fault {s : State} {c : Cause} (a : Addr) (h : s.reply.fault = some c) :
    s.memRead a = .err (.transport c) (s.turn.record (.rdFault a c)) := by
  simp only [State.memRead, h]

theorem State.memRead_completes {s : State} (a : Addr) (h : s.reply.fault = none) :
    s.memRead a = .ok (s.incoming a) ((s.turn.setFrm (frameOfBytes (s.incoming a))).record
      (.rd a (s.incoming a).1 (s.incoming a).2)) := by
  simp only [State.memRead, h]

theorem State.memWrite_fault {s : State} {c : Cause} (a : Addr) (bs : Byte × Byte)
    (h : s.reply.fault = some c) :
    s.memWrite a bs = .err (.transport c)
      (((s.turn.setFrm (frameOfBytes bs)).setReg a (s.reply.stored.getD (s.turn.reg a))).record
        (.wrFault a bs.1 bs.2 c)) := by
  simp only [State.memWrite, h]
  rfl

theorem State.memWrite_completes {s : State} (a : Addr) (bs : Byte × Byte) (h : s.reply.fault = none) :
    s.memWrite a bs = .ok ()
      (((s.turn.setFrm (frameOfBytes bs)).setReg a
        (s.reply.stored.getD (framePayload (frameOfBytes bs)))).record (.wr a bs.1 bs.2)) := by
  simp only [State.memWrite, h]

/-! ### Register Codec -/

/-- What RDREG does (41_regcodec.md rule R100), case by case. -/
theorem State.readRegister_cases (s : State) (a : Addr) :
    (∃ c, s.reply.fault = some c ∧
      s.readRegister a = .err (.transport c) (s.turn.record (.rdFault a c))) ∨
    (s.reply.fault = none ∧ frameValid s.cfg.crcPoly (frameOfBytes (s.incoming a)) = false ∧
      s.readRegister a = .err (.integrity a (frameOfBytes (s.incoming a)))
        ((s.turn.setFrm (frameOfBytes (s.incoming a))).record
          (.rd a (s.incoming a).1 (s.incoming a).2))) ∨
    (s.reply.fault = none ∧ frameValid s.cfg.crcPoly (frameOfBytes (s.incoming a)) = true ∧
      s.readRegister a = .ok (framePayload (frameOfBytes (s.incoming a)))
        ((s.turn.setFrm (frameOfBytes (s.incoming a))).record
          (.rd a (s.incoming a).1 (s.incoming a).2))) := by
  cases hf : s.reply.fault with
  | some c => exact .inl ⟨c, rfl, by simp [State.readRegister, State.memRead_fault a hf]⟩
  | none =>
    refine .inr ?_
    cases hv : frameValid s.cfg.crcPoly (frameOfBytes (s.incoming a)) with
    | false => exact .inl ⟨rfl, rfl, by simp [State.readRegister, State.memRead_completes a hf, hv]⟩
    | true => exact .inr ⟨rfl, rfl, by simp [State.readRegister, State.memRead_completes a hf, hv]⟩

/-- What WRREG does (41_regcodec.md rule R101), case by case. -/
theorem State.writeRegister_cases (s : State) (a : Addr) (v : Payload) :
    (∃ c, s.reply.fault = some c ∧ s.writeRegister a v = .err (.transport c)
      (((s.turn.setFrm (writeFrame s.cfg.crcPoly a v)).setReg a
          (s.reply.stored.getD (s.turn.reg a))).record
        (.wrFault a (frameBytes (writeFrame s.cfg.crcPoly a v)).1
          (frameBytes (writeFrame s.cfg.crcPoly a v)).2 c))) ∨
    (s.reply.fault = none ∧ s.writeRegister a v = .ok ()
      (((s.turn.setFrm (writeFrame s.cfg.crcPoly a v)).setReg a (s.reply.stored.getD v)).record
        (.wr a (frameBytes (writeFrame s.cfg.crcPoly a v)).1
          (frameBytes (writeFrame s.cfg.crcPoly a v)).2))) := by
  cases hf : s.reply.fault with
  | some c =>
    exact .inl ⟨c, rfl, by simp only [State.writeRegister, State.memWrite_fault a _ hf, frameOfBytes_frameBytes]⟩
  | none =>
    refine .inr ⟨rfl, ?_⟩
    simp only [State.writeRegister, State.memWrite_completes a _ hf, frameOfBytes_frameBytes, writeFrame,
      framePayload_assemble]

/-! ### What every piece of pseudocode keeps -/

/-- From `s` to `t` nothing changes but the target's registers (which keep their canonical form), the replies used
up, the events added, and the transient state. -/
structure State.Keeps (s t : State) : Prop where
  cfg : t.cfg = s.cfg
  busRest : t.busRest = s.busRest
  cmds : t.cmds = s.cmds
  cmdIdx : t.cmdIdx = s.cmdIdx
  stopped : t.stopped = s.stopped
  trace : ∃ es, t.trace = s.trace ++ es
  regs : Memory.wf s.regs = true → Memory.wf t.regs = true

/-- The state a piece of pseudocode leaves. -/
def Res.state {α : Type} : Res α → State
  | .ok _ s => s
  | .err _ s => s

@[simp] theorem Res.state_ok {α : Type} (x : α) (s : State) : (Res.ok x s).state = s := rfl
@[simp] theorem Res.state_err {α : Type} (e : Raise) (s : State) : (Res.err e s : Res α).state = s := rfl

theorem State.Keeps.refl (s : State) : s.Keeps s :=
  ⟨rfl, rfl, rfl, rfl, rfl, ⟨[], by simp⟩, id⟩

theorem State.Keeps.trans {s t u : State} (h : s.Keeps t) (k : t.Keeps u) : s.Keeps u := by
  obtain ⟨es, he⟩ := h.trace
  obtain ⟨fs, hf⟩ := k.trace
  exact ⟨k.cfg.trans h.cfg, k.busRest.trans h.busRest, k.cmds.trans h.cmds, k.cmdIdx.trans h.cmdIdx,
    k.stopped.trans h.stopped, ⟨es ++ fs, by rw [hf, he, List.append_assoc]⟩, k.regs ∘ h.regs⟩

theorem State.keeps_record (s : State) (e : Event) : s.Keeps (s.record e) :=
  ⟨rfl, rfl, rfl, rfl, rfl, ⟨[e], rfl⟩, id⟩

theorem State.keeps_setFrm (s : State) (f : Frame) : s.Keeps (s.setFrm f) :=
  ⟨rfl, rfl, rfl, rfl, rfl, ⟨[], by simp⟩, id⟩

theorem State.keeps_setTmp (s : State) (p : Payload) : s.Keeps (s.setTmp p) :=
  ⟨rfl, rfl, rfl, rfl, rfl, ⟨[], by simp⟩, id⟩

theorem State.keeps_turn (s : State) : s.Keeps s.turn :=
  ⟨rfl, rfl, rfl, rfl, rfl, ⟨[], by simp⟩, Memory.wf_land _ _⟩

theorem State.keeps_setReg (s : State) (a : Addr) (v : Payload) : s.Keeps (s.setReg a v) :=
  ⟨rfl, rfl, rfl, rfl, rfl, ⟨[], by simp⟩, Memory.wf_write _ _ _ a.isLt⟩

theorem State.keeps_delay (s : State) : s.Keeps s.delay := State.keeps_record s .dly

theorem State.keeps_accept (s : State) : s.Keeps s.accept :=
  ⟨rfl, rfl, rfl, rfl, rfl, ⟨[], by simp⟩, id⟩

theorem State.keeps_respond (s : State) (r : Response) : s.Keeps (s.respond r) :=
  ⟨rfl, rfl, rfl, rfl, rfl, ⟨[], by simp⟩, id⟩

theorem State.keeps_raiseError (s : State) (e : Raise) : s.Keeps (s.raiseError e) :=
  ⟨rfl, rfl, rfl, rfl, rfl, ⟨[], by simp⟩, id⟩

theorem Res.keeps_andThen {α β : Type} {s : State} {r : Res α} {k : α → State → Res β}
    (hr : s.Keeps r.state) (hk : ∀ x (t : State), t.Keeps (k x t).state) : s.Keeps (r.andThen k).state := by
  cases r with
  | ok x t => exact hr.trans (hk x t)
  | err e t => exact hr

theorem State.keeps_readRegister (s : State) (a : Addr) : s.Keeps (s.readRegister a).state := by
  rcases s.readRegister_cases a with ⟨c, _, h⟩ | ⟨_, _, h⟩ | ⟨_, _, h⟩ <;> rw [h]
  · exact s.keeps_turn.trans (State.keeps_record ..)
  all_goals exact s.keeps_turn.trans ((State.keeps_setFrm ..).trans (State.keeps_record ..))

theorem State.keeps_writeRegister (s : State) (a : Addr) (v : Payload) :
    s.Keeps (s.writeRegister a v).state := by
  rcases s.writeRegister_cases a v with ⟨c, _, h⟩ | ⟨_, h⟩ <;> rw [h]
  all_goals
    exact s.keeps_turn.trans ((State.keeps_setFrm ..).trans ((State.keeps_setReg ..).trans
      (State.keeps_record ..)))

theorem State.keeps_readMasked (s : State) (a : Addr) (m : Payload) : s.Keeps (s.readMasked a m).state :=
  Res.keeps_andThen (s.keeps_readRegister a) fun _ t => State.Keeps.refl t

theorem State.keeps_writeMasked (s : State) (a : Addr) (v m : Payload) :
    s.Keeps (s.writeMasked a v m).state :=
  Res.keeps_andThen (s.keeps_readRegister a) fun p t =>
    (t.keeps_setTmp p).trans (State.keeps_writeRegister ..)

theorem State.keeps_writePaired (s : State) (f : Field) (fv : Payload) :
    s.Keeps (s.writePaired f fv).state :=
  Res.keeps_andThen (State.keeps_writeMasked ..) fun _ t =>
    Res.keeps_andThen (t.keeps_delay.trans (State.keeps_writeMasked ..)) fun _ u => u.keeps_delay

theorem Res.keeps_finish {s : State} {r : Res Response} (h : s.Keeps r.state) : s.Keeps r.finish := by
  cases r with
  | ok x t => exact h.trans (t.keeps_respond x)
  | err e t => exact h.trans (t.keeps_raiseError e)

/-- One operation answers a next state, the end of its pseudocode from the accepted command. -/
theorem perform_next {body : State → Res Response} {s t : State} (h : perform body s = .next t) :
    t = (body s.accept).finish := by
  cases h
  rfl

/-- An operation whose pseudocode keeps what it should keeps it from the command to the response. -/
theorem perform_keeps {body : State → Res Response} {s t : State} (h : perform body s = .next t)
    (hb : s.accept.Keeps (body s.accept).state) : s.Keeps t := by
  rw [perform_next h]
  exact s.keeps_accept.trans (Res.keeps_finish hb)

end Sys2Proof.Machine
end

