-- ==== Sys2Proof/Laws/PerInstr.lean ====
section
/-! SUPPORT. The family OpcodeByte: the top byte of an operation's command word is its opcode of 30_encoding.md
rule R59. -/

namespace Sys2Proof.Laws

/-- Bits 47 to 40 of the command word are the opcode (30_encoding.md rule R55). -/
def OpcodeByte.Statement (i : Instr) : Prop := (encode i).op = i.opcode

theorem OpcodeByte.top (o : BitVec 8) (rest : BitVec 40) : Command.op (o ++ rest) = o := by
  unfold Command.op
  ext j hj
  rw [BitVec.getElem_extractLsb', BitVec.getLsbD_append]
  simp [BitVec.getLsbD_eq_getElem hj]

theorem OpcodeByte.rdreg (a : Addr) : OpcodeByte.Statement (.rdreg a) := OpcodeByte.top _ _
theorem OpcodeByte.wrreg (a : Addr) (v : Payload) : OpcodeByte.Statement (.wrreg a v) := OpcodeByte.top _ _
theorem OpcodeByte.rdmsk (a : Addr) (m : Payload) : OpcodeByte.Statement (.rdmsk a m) := OpcodeByte.top _ _
theorem OpcodeByte.wrmsk (a : Addr) (v : Payload) (m : Payload) : OpcodeByte.Statement (.wrmsk a v m) := OpcodeByte.top _ _
theorem OpcodeByte.crc (word : BitVec 24) (poly fill : BitVec 8) : OpcodeByte.Statement (.crc word poly fill) := OpcodeByte.top _ _
theorem OpcodeByte.setVdd (v : Word16) : OpcodeByte.Statement (.setVdd v) := OpcodeByte.top _ _
theorem OpcodeByte.setOutmode (v : Word16) : OpcodeByte.Statement (.setOutmode v) := OpcodeByte.top _ _
theorem OpcodeByte.setAgc (v : Word16) : OpcodeByte.Statement (.setAgc v) := OpcodeByte.top _ _
theorem OpcodeByte.setGain (v : Word16) : OpcodeByte.Statement (.setGain v) := OpcodeByte.top _ _
theorem OpcodeByte.setBoost (v : Word16) : OpcodeByte.Statement (.setBoost v) := OpcodeByte.top _ _
theorem OpcodeByte.setFgain1 (v : Word16) : OpcodeByte.Statement (.setFgain1 v) := OpcodeByte.top _ _
theorem OpcodeByte.setFgain2 (v : Word16) : OpcodeByte.Statement (.setFgain2 v) := OpcodeByte.top _ _
theorem OpcodeByte.setOffs1 (sign : Word16) (mag : Word16) : OpcodeByte.Statement (.setOffs1 sign mag) := OpcodeByte.top _ _
theorem OpcodeByte.setOffs2 (sign : Word16) (mag : Word16) : OpcodeByte.Statement (.setOffs2 sign mag) := OpcodeByte.top _ _
theorem OpcodeByte.setBias (v : Word16) : OpcodeByte.Statement (.setBias v) := OpcodeByte.top _ _
theorem OpcodeByte.setSubaddr (v : Word16) : OpcodeByte.Statement (.setSubaddr v) := OpcodeByte.top _ _
theorem OpcodeByte.getVdd : OpcodeByte.Statement .getVdd := OpcodeByte.top _ _
theorem OpcodeByte.getOutmode : OpcodeByte.Statement .getOutmode := OpcodeByte.top _ _
theorem OpcodeByte.getAgc : OpcodeByte.Statement .getAgc := OpcodeByte.top _ _
theorem OpcodeByte.getGain : OpcodeByte.Statement .getGain := OpcodeByte.top _ _
theorem OpcodeByte.getBoost : OpcodeByte.Statement .getBoost := OpcodeByte.top _ _
theorem OpcodeByte.getFgain1 : OpcodeByte.Statement .getFgain1 := OpcodeByte.top _ _
theorem OpcodeByte.getFgain2 : OpcodeByte.Statement .getFgain2 := OpcodeByte.top _ _
theorem OpcodeByte.getOffs1 : OpcodeByte.Statement .getOffs1 := OpcodeByte.top _ _
theorem OpcodeByte.getOffs2 : OpcodeByte.Statement .getOffs2 := OpcodeByte.top _ _
theorem OpcodeByte.getBias : OpcodeByte.Statement .getBias := OpcodeByte.top _ _
theorem OpcodeByte.getSubaddr : OpcodeByte.Statement .getSubaddr := OpcodeByte.top _ _
theorem OpcodeByte.getTxfreq : OpcodeByte.Statement .getTxfreq := OpcodeByte.top _ _
theorem OpcodeByte.getpGain : OpcodeByte.Statement .getpGain := OpcodeByte.top _ _
theorem OpcodeByte.getpFgain1 : OpcodeByte.Statement .getpFgain1 := OpcodeByte.top _ _
theorem OpcodeByte.getpFgain2 : OpcodeByte.Statement .getpFgain2 := OpcodeByte.top _ _
theorem OpcodeByte.getpOffs1 : OpcodeByte.Statement .getpOffs1 := OpcodeByte.top _ _
theorem OpcodeByte.getpOffs2 : OpcodeByte.Statement .getpOffs2 := OpcodeByte.top _ _
theorem OpcodeByte.getpBias : OpcodeByte.Statement .getpBias := OpcodeByte.top _ _
theorem OpcodeByte.getpTxfreq : OpcodeByte.Statement .getpTxfreq := OpcodeByte.top _ _

end Sys2Proof.Laws
end

