-- ==== Sys2Proof/Tests/Slice0.lean ====
section
/-! SUPPORT. The model's own tests. Expected values are those of the spec's own vectors (95_test_vectors.md,
96_test_vectors_fields.md, 97_programs.md) or are written out from its encodings; and, for every statement with
hypotheses, a theorem named witness_<statement> that meets them. -/

namespace Sys2Proof.Tests

open Sys2Proof.Machine

/-! ### Well-formedness: an ill-formed operation for each check -/

theorem test_wf_refuses_rdmsk_zero_mask : (Instr.rdmsk 0x02#7 0#11).wf = false := by decide
theorem test_wf_accepts_rdmsk : (Instr.rdmsk 0x02#7 1#11).wf = true := by decide
theorem test_wf_refuses_crc_zero_polynomial : (Instr.crc 5#24 0#8 0#8).wf = false := by decide
theorem test_wf_accepts_crc_polynomial_one : (Instr.crc 5#24 1#8 0#8).wf = true := by decide

/-! ### Decoding: one word for every operation, written out from 30_encoding.md rules R56 to R59 -/

theorem test_decode_rdreg : decode 0x016E00000000#48 = .ok (.rdreg 0x6E#7) := by decide
theorem test_decode_wrreg : decode 0x027F04010000#48 = .ok (.wrreg 0x7F#7 0x401#11) := by decide
theorem test_decode_rdmsk : decode 0x036E000000F0#48 = .ok (.rdmsk 0x6E#7 0x0F0#11) := by decide
theorem test_decode_wrmsk : decode 0x040000A000F0#48 = .ok (.wrmsk 0x00#7 0x0A0#11 0x0F0#11) := by decide
theorem test_decode_crc : decode 0x080B02060204#48 = .ok (.crc 0x020602#24 0x0B#8 0x04#8) := by decide
theorem test_decode_setVdd : decode 0x100000010000#48 = .ok (.setVdd 1#16) := by decide
theorem test_decode_setOutmode : decode 0x110000010000#48 = .ok (.setOutmode 1#16) := by decide
theorem test_decode_setAgc : decode 0x120000010000#48 = .ok (.setAgc 1#16) := by decide
theorem test_decode_setGain : decode 0x1300005F0000#48 = .ok (.setGain 95#16) := by decide
theorem test_decode_setBoost : decode 0x140000010000#48 = .ok (.setBoost 1#16) := by decide
theorem test_decode_setFgain1 : decode 0x150000640000#48 = .ok (.setFgain1 100#16) := by decide
theorem test_decode_setFgain2 : decode 0x1600007F0000#48 = .ok (.setFgain2 127#16) := by decide
theorem test_decode_setOffs1 : decode 0x1700007F0001#48 = .ok (.setOffs1 1#16 127#16) := by decide
theorem test_decode_setOffs2 : decode 0x180000800001#48 = .ok (.setOffs2 1#16 128#16) := by decide
theorem test_decode_setBias : decode 0x190000FF0000#48 = .ok (.setBias 255#16) := by decide
theorem test_decode_setSubaddr : decode 0x1A00000F0000#48 = .ok (.setSubaddr 15#16) := by decide
theorem test_decode_getVdd : decode 0x200000000000#48 = .ok .getVdd := by decide
theorem test_decode_getOutmode : decode 0x210000000000#48 = .ok .getOutmode := by decide
theorem test_decode_getAgc : decode 0x220000000000#48 = .ok .getAgc := by decide
theorem test_decode_getGain : decode 0x230000000000#48 = .ok .getGain := by decide
theorem test_decode_getBoost : decode 0x240000000000#48 = .ok .getBoost := by decide
theorem test_decode_getFgain1 : decode 0x250000000000#48 = .ok .getFgain1 := by decide
theorem test_decode_getFgain2 : decode 0x260000000000#48 = .ok .getFgain2 := by decide
theorem test_decode_getOffs1 : decode 0x270000000000#48 = .ok .getOffs1 := by decide
theorem test_decode_getOffs2 : decode 0x280000000000#48 = .ok .getOffs2 := by decide
theorem test_decode_getBias : decode 0x290000000000#48 = .ok .getBias := by decide
theorem test_decode_getSubaddr : decode 0x2A0000000000#48 = .ok .getSubaddr := by decide
theorem test_decode_getTxfreq : decode 0x2B0000000000#48 = .ok .getTxfreq := by decide
theorem test_decode_getpGain : decode 0x330000000000#48 = .ok .getpGain := by decide
theorem test_decode_getpFgain1 : decode 0x350000000000#48 = .ok .getpFgain1 := by decide
theorem test_decode_getpFgain2 : decode 0x360000000000#48 = .ok .getpFgain2 := by decide
theorem test_decode_getpOffs1 : decode 0x370000000000#48 = .ok .getpOffs1 := by decide
theorem test_decode_getpOffs2 : decode 0x380000000000#48 = .ok .getpOffs2 := by decide
theorem test_decode_getpBias : decode 0x390000000000#48 = .ok .getpBias := by decide
theorem test_decode_getpTxfreq : decode 0x3B0000000000#48 = .ok .getpTxfreq := by decide
theorem test_decode_unknown_opcode : decode 0x1B0000010000#48 = .error .unknownOpcode := by decide
theorem test_decode_reserved_before_range : decode 0x130100600000#48 = .error .reservedBits := by decide
theorem test_decode_rdmsk_zero_mask : decode 0x030200000000#48 = .error .zeroMask := by decide
theorem test_decode_crc_zero_polynomial : decode 0x080000000500#48 = .error .zeroPoly := by decide
theorem test_decode_wrreg_value_above_payload : decode 0x020208000000#48 = .error .reservedBits := by decide
theorem test_decode_address_above_seven_bits : decode 0x018200000000#48 = .error .reservedBits := by decide
theorem test_assembly_setOffs1 : assembly (.setOffs1 1#16 127#16) = "SET_OFFS1 1, 127" := by decide +kernel
theorem test_decodeTableWord : decodeTableWord 48 0x040000A000F0 = some (.wrmsk 0x00#7 0x0A0#11 0x0F0#11) := by
  decide

/-! ### One step of each operation -/

/-- The machine after reset with the given registers, gain table entries equal to 349/20 (only entry 50 is read), the
exact format, the given coming replies, and one command presented. -/
def small (regs : Memory) (bus : List Reply) (w : Command) : State :=
  { State.reset with
    cfg := { Config.params with physFmt := .exact, gainTable := Vector.replicate 96 (349 / 20) }
    regs := regs, bus := bus, cmds := [w] }

/-- The state one step leads to. -/
def after (s : State) : State :=
  match step s with
  | .next t => t
  | .fault _ => s
  | .refused _ => s

theorem test_rdreg :
    (after (small [(2, 0x032#11)] [] 0x010200000000#48)).result = some 0x0032#16 := by decide
theorem test_wrreg :
    (after (small [(16, 0x123#11)] [] 0x021007FF0000#48)).trace = [.wr 0x10#7 0xFF#8 0xF8#8] := by decide
theorem test_wrreg_stores :
    (after (small [(16, 0x123#11)] [] 0x021007FF0000#48)).regs = [(16, 0x7FF#11)] := by decide
theorem test_rdmsk :
    (after (small [(0x6E, 0x3E8#11)] [] 0x036E000000F0#48)).result = some 0x000E#16 := by decide
theorem test_wrmsk :
    (after (small [(0, 0x555#11)] [] 0x040000A000F0#48)).trace = [.rd 0x00#7 0xAA#8 0xB8#8, .wr 0x00#7 0xB4#8 0xB9#8] := by decide
theorem test_crc :
    (after (small [] [] 0x088912345600#48)).result = some 0x2F#16 := by decide
theorem test_setVdd :
    (after (small [(1, 0x555#11), (65, 0x2AA#11)] [] 0x100000010000#48)).regs = [(1, 0x555#11), (65, 0x2AB#11)] := by decide
theorem test_setOutmode :
    (after (small [(0, 0x555#11), (64, 0x2AA#11)] [] 0x110000010000#48)).regs = [(0, 0x557#11), (64, 0x2AA#11)] := by decide
theorem test_setAgc :
    (after (small [(0, 0x555#11), (64, 0x2AA#11)] [] 0x120000000000#48)).regs = [(0, 0x755#11), (64, 0x2AA#11)] := by decide
theorem test_setGain :
    (after (small [(2, 0x555#11), (66, 0x2AA#11)] [] 0x1300005F0000#48)).regs = [(2, 0x55F#11), (66, 0x2DF#11)] := by decide
theorem test_setBoost :
    (after (small [(2, 0x555#11), (66, 0x2AA#11)] [] 0x140000010000#48)).regs = [(2, 0x5D5#11), (66, 0x2AA#11)] := by decide
theorem test_setFgain1 :
    (after (small [(3, 0x555#11), (67, 0x2AA#11)] [] 0x150000640000#48)).regs = [(3, 0x564#11), (67, 0x2E4#11)] := by decide
theorem test_setFgain2 :
    (after (small [(5, 0x555#11), (69, 0x2AA#11)] [] 0x1600007F0000#48)).regs = [(5, 0x57F#11), (69, 0x2FF#11)] := by decide
theorem test_setOffs1 :
    (after (small [(4, 0x555#11), (68, 0x2AA#11)] [] 0x170000010001#48)).regs = [(4, 0x581#11), (68, 0x281#11)] := by decide
theorem test_setOffs2 :
    (after (small [(6, 0x555#11), (70, 0x2AA#11)] [] 0x180000000001#48)).regs = [(6, 0x580#11), (70, 0x280#11)] := by decide
theorem test_setBias :
    (after (small [(7, 0x555#11), (71, 0x2AA#11)] [] 0x190000400000#48)).regs = [(7, 0x540#11), (71, 0x240#11)] := by decide
theorem test_setSubaddr :
    (after (small [(0, 0x555#11), (64, 0x2AA#11)] [] 0x1A0000050000#48)).regs = [(0, 0x555#11), (64, 0x25A#11)] := by decide
theorem test_setGain_trace :
    (after (small [(2, 0x555#11), (0x42, 0x2AA#11)] [] 0x1300005F0000#48)).trace =
      [.rd 0x42#7 0x55#8 0x5C#8, .wr 0x42#7 0x5B#8 0xF8#8, .dly, .rd 0x02#7 0xAA#8 0xB8#8, .wr 0x02#7 0xAB#8 0xFD#8,
        .dly] := by decide
theorem test_setGain_out_of_range :
    (after (small [] [] 0x130000600000#48)).status = some 2#3 := by decide
theorem test_getVdd :
    (after (small [(1, 0x7FE#11)] [] 0x200000000000#48)).result = some 0#16 := by decide
theorem test_getOutmode :
    (after (small [(0, 0x2AA#11)] [] 0x210000000000#48)).result = some 1#16 := by decide
theorem test_getAgc :
    (after (small [(0, 0x5FF#11)] [] 0x220000000000#48)).result = some 1#16 := by decide
theorem test_getGain :
    (after (small [(2, 0x0B2#11)] [] 0x230000000000#48)).result = some 50#16 := by decide
theorem test_getBoost :
    (after (small [(2, 0x0B2#11)] [] 0x240000000000#48)).result = some 1#16 := by decide
theorem test_getFgain1 :
    (after (small [(3, 0x57F#11)] [] 0x250000000000#48)).result = some 127#16 := by decide
theorem test_getFgain2 :
    (after (small [(5, 0x2AA#11)] [] 0x260000000000#48)).result = some 42#16 := by decide
theorem test_getOffs1 :
    (after (small [(4, 0x3FF#11)] [] 0x270000000000#48)).result = some 255#16 := by decide
theorem test_getOffs2 :
    (after (small [(6, 0x555#11)] [] 0x280000000000#48)).result = some 85#16 := by decide
theorem test_getBias :
    (after (small [(7, 0x4FF#11)] [] 0x290000000000#48)).result = some 255#16 := by decide
theorem test_getSubaddr :
    (after (small [(0, 0x2AA#11)] [] 0x2A0000000000#48)).result = some 10#16 := by decide
theorem test_getTxfreq :
    (after (small [(110, 0x3E8#11)] [] 0x2B0000000000#48)).result = some 1000#16 := by decide

theorem test_getpGain :
    (after (small [(2, 0x0B2#11)] [] 0x330000000000#48)).phys = some (349 / 20) := by decide +kernel
theorem test_getpFgain1 :
    (after (small [(3, 0x555#11)] [] 0x350000000000#48)).phys = some (177 / 160) := by decide +kernel
theorem test_getpFgain2 :
    (after (small [(5, 0x57F#11)] [] 0x360000000000#48)).phys = some (927 / 800) := by decide +kernel
theorem test_getpOffs1 :
    (after (small [(4, 0x3FF#11)] [] 0x370000000000#48)).phys = some (-381 / 200000) := by decide +kernel
theorem test_getpOffs2 :
    (after (small [(6, 0x2AA#11)] [] 0x380000000000#48)).phys = some (-63 / 100000) := by decide +kernel
theorem test_getpBias :
    (after (small [(7, 0x4FF#11)] [] 0x390000000000#48)).phys = some (2016) := by decide +kernel
theorem test_getpTxfreq :
    (after (small [(110, 0x3E8#11)] [] 0x3B0000000000#48)).phys = some (20000000) := by decide +kernel
theorem test_getpGain_inconsistent :
    (after (small [(2, 0x060#11)] [] 0x330000000000#48)).status = some 4#3 := by decide

/-- A reply that brings the given bytes. -/
def bring (b0 b1 : Byte) : Reply := { Reply.reference with bytes := some (b0, b1) }

/-- A reply that fails with cause 7. -/
def fail : Reply := { Reply.reference with fault := some ⟨7⟩ }

theorem test_rdreg_other_marker :
    (after (small [] [bring 0x06#8 0x44#8] 0x010200000000#48)).result = some 0x0032#16 := by decide
theorem test_rdreg_integrity :
    (after (small [(0x6E, 0x3E8#11)] [bring 0x7C#8 0x1F#8] 0x016E00000000#48)).status = some 1#3 := by decide
theorem test_setGain_fails_half_way :
    (after (small [(2, 0x032#11), (0x42, 0x032#11)] [.reference, .reference, .reference, fail] 0x1300000A0000#48)).regs = [(2, 0x032#11), (0x42, 0x00A#11)] := by decide
theorem test_setGain_failure_cause :
    (after (small [(2, 0x032#11), (0x42, 0x032#11)] [.reference, .reference, .reference, fail] 0x1300000A0000#48)).tcause = some ⟨7⟩ := by decide
theorem test_illegal :
    (after (small [] [] 0x050000000000#48)).status = some 5#3 := by decide
theorem test_error_stops_the_host :
    (after (small [] [] 0x050000000000#48)).stopped = true := by decide
theorem test_reset_step_idles : after State.reset = State.reset := rfl
theorem test_withFetchWord_runs :
    (after (State.reset.withFetchWord 48 0x010200000000)).trace = [.rd 0x02#7 0x00#8 0x18#8] := by decide
theorem test_crc_sixteen_bit_generator : crc 0x313233343536373839 0x11021 0 = 0x31C3 := by decide
theorem test_crcDiv_one_bit_polynomial : crcDiv 4 1 1 0b1101#4 1#1 1#1 = 0#1 := by decide
theorem test_crcSerial : crcSerial 0x123456 0x89 0x2F = 0 := by decide +kernel

/-! ### Witnesses: states and operands that meet the hypotheses of the statements -/

/-- Reset's state with a gain table that satisfies 43_field_getters.md rule R163 and the exact format. -/
def plain : State :=
  { State.reset with
    cfg := { Config.params with physFmt := .exact, gainTable := Vector.ofFn fun i => ((i.val + 1 : Nat) : Rat) * (349 / 1020) } }

/-- `plain` with the given registers and coming replies. -/
def plainWith (regs : Memory) (bus : List Reply) : State := { plain with regs := regs, bus := bus }

/-- What an operation leaves. -/
def ran (i : Instr) (s : State) : State :=
  match exec i s with
  | .next t => t
  | .fault _ => s
  | .refused _ => s

theorem exec_ran (i : Instr) (s : State) : exec i s = .next (ran i s) := by
  cases i <;> rfl

theorem plain_referenceBus (regs : Memory) : (plainWith regs []).ReferenceBus := by
  refine ⟨fun r h => ?_, rfl, rfl, rfl, rfl⟩
  cases h

theorem plain_cfg_wf : plain.cfg.wf := by
  refine ⟨rfl, fun i => ?_, fun i => ?_, ?_⟩
  · have : (0 : Rat) < ((i.val + 1 : Nat) : Rat) := by positivity
    have h := mul_pos this (by norm_num : (0 : Rat) < 349 / 1020)
    show 0 < (Vector.ofFn fun i : Fin 96 => ((i.val + 1 : Nat) : Rat) * (349 / 1020))[i]
    rw [Fin.getElem_fin, Vector.getElem_ofFn]
    exact h
  · have : ((i.val + 1 : Nat) : Rat) < ((i.val + 1 + 1 : Nat) : Rat) := by exact_mod_cast Nat.lt_succ_self _
    have h := mul_lt_mul_of_pos_right this (by norm_num : (0 : Rat) < 349 / 1020)
    show (Vector.ofFn fun i : Fin 96 => ((i.val + 1 : Nat) : Rat) * (349 / 1020))[i.val] <
      (Vector.ofFn fun i : Fin 96 => ((i.val + 1 : Nat) : Rat) * (349 / 1020))[i.val + 1]
    rw [Vector.getElem_ofFn, Vector.getElem_ofFn]
    exact h
  · norm_num [plain]

theorem witness_CrcIsTheUnmaskedRemainderBelowTwoToTheN :
    1 ≤ (0b1011 : Nat) := by decide
theorem witness_DivisionLoopTerminatesWithinItsBound :
    1 ≤ (0b1011 : Nat) ∧ bitlen 0b1011 - 1 < bitlen 0b1000 ∧ bitlen 0b111 ≤ bitlen 0b1011 - 1 ∧
      bitlen 0b1000 - (bitlen 0b1011 - 1) ≤ 1 ∧ 1 < 2 ^ 1 ∧ 7 < 2 ^ (bitlen 0b1011 - 1) := by decide
theorem witness_CrcIsTheUniqueGfTwoRemainder :
    1 ≤ (0b1011 : Nat) ∧ bitlen 1 ≤ bitlen 0b1011 - 1 ∧
      ((0b1101 <<< (bitlen 0b1011 - 1)) ||| 0) ^^^ 1 = xorShifts 0b1011 [3, 2, 1, 0] := by decide
theorem witness_CrcLinearityLaws :
    1 ≤ (0b1011 : Nat) ∧ 7 < 2 ^ (bitlen 0b1011 - 1) ∧ 0 < 2 ^ 0 := by decide
theorem witness_CheckCodeValidatesAndIsUnique :
    1 ≤ (0b1011 : Nat) ∧ 1 < 2 ^ (bitlen 0b1011 - 1) ∧ crc 0b1101 0b1011 1 = 0 := by decide
theorem witness_BitSerialFormComputesCrc :
    1 ≤ (1 : Nat) := by decide
theorem witness_CrcOnDegenerateInputs :
    1 ≤ (1 : Nat) ∧ 1 ≤ (0b1011 : Nat) ∧ 7 < 2 ^ (bitlen 0b1011 - 1) := by decide
theorem witness_CrcOperationResult :
    (0x0B#8 ≠ 0#8) ∧ (1#16).toNat = crc (0x020602#24).toNat (0x0B#8).toNat (0#8).toNat ∧ 0#8 = 0#8 := by decide
theorem witness_WriteFrameAssembly :
    (0b1011#4).getLsbD 3 = true := by decide
theorem witness_ReadFrameSplitIgnoresTheMarker :
    (0x065C#16 ||| 0x18#16) = (0x0644#16 ||| 0x18#16) ∧ 0x065C#16 ≠ 0x0644#16 := by decide
theorem witness_FrameValidIffItsCheckCodeIsItsPayloads :
    (0b1011#4).getLsbD 3 = true ∧ frameValid 0b1011#4 0x065C#16 = true := by decide
theorem witness_SingleBitErrorsAreDetected :
    (5 : Fin 16) ≠ 3 ∧ (5 : Fin 16) ≠ 4 ∧ frameValid 0b1011#4 0x065C#16 = true := by decide
theorem witness_ReferenceFrameIsValid :
    (0b1000#4).getLsbD 3 = true ∧ (0b1111#4).getLsbD 3 = true := by decide
theorem witness_WrittenFrameIsValidToReadExactlyWhenTheAddressVanishes :
    (0b1011#4).getLsbD 3 = true ∧ frameValid 0b1011#4 (writeFrame 0b1011#4 0x0B#7 0x555#11) = true ∧
      frameValid 0b1011#4 (writeFrame 0b1011#4 0x02#7 0x032#11) = false := by decide
theorem witness_ReadRegisterOutcome_completes :
    (plainWith [(2, 0x032#11)] []).FourBitPoly ∧ (plainWith [(2, 0x032#11)] []).reply.fault = none ∧
      (plainWith [(2, 0x032#11)] []).incoming 0x02#7 = (0x06#8, 0x5C#8) ∧
      (plainWith [(2, 0x032#11)] []).remainder (0x06#8 ++ 0x5C#8) = 0 := by decide
theorem witness_ReadRegisterOutcome_invalid :
    (plainWith [] [bring 0x06#8 0x5B#8]).FourBitPoly ∧ (plainWith [] [bring 0x06#8 0x5B#8]).reply.fault = none ∧
      (plainWith [] [bring 0x06#8 0x5B#8]).incoming 0x02#7 = (0x06#8, 0x5B#8) ∧
      (plainWith [] [bring 0x06#8 0x5B#8]).remainder (0x06#8 ++ 0x5B#8) ≠ 0 := by decide
theorem witness_ReadRegisterOutcome_fault :
    (plainWith [] [fail]).FourBitPoly ∧ (plainWith [] [fail]).reply.fault = some ⟨7⟩ := by decide
theorem witness_WriteRegisterOutcome :
    (plainWith [] []).FourBitPoly ∧ (plainWith [] []).reply.fault = none ∧
      (plainWith [] [fail]).FourBitPoly ∧ (plainWith [] [fail]).reply.fault = some ⟨7⟩ ∧
      (0x0659#16).toNat = ((0x032#11).toNat <<< 5) ||| 0x18 |||
        crc (wrword 0x02#7 0x032#11).toNat (0b1011#4).toNat 0 := by decide
theorem witness_MaskedReadIsReadThenSelect :
    exec (.rdreg 0x02#7) (plainWith [(2, 0x032#11)] []) = .next (ran (.rdreg 0x02#7) (plainWith [(2, 0x032#11)] [])) ∧
    (ran (.rdreg 0x02#7) (plainWith [(2, 0x032#11)] [])).status = some 0#3 ∧
    (ran (.rdreg 0x02#7) (plainWith [(2, 0x032#11)] [])).result = some ((0x032#11).setWidth 16) ∧
    (0x0F0#11).getLsbD 4 = true ∧ (∀ j, j < 4 → (0x0F0#11).getLsbD j = false) ∧
    (ran (.rdreg 0x02#7) (plainWith [] [fail])).status ≠ some 0#3 :=
  ⟨exec_ran _ _, by decide, by decide, by decide, by decide, by decide⟩
theorem witness_MaskedReadIsReadThenSelect_zero_mask :
    exec (.rdreg 0x02#7) plain = .next (ran (.rdreg 0x02#7) plain) ∧
    (ran (.rdmsk 0x02#7 0#11) plain).status = some 5#3 := ⟨exec_ran _ _, by decide⟩
theorem witness_MaskedWriteIsReadMergeWrite :
    exec (.rdreg 0x02#7) (plainWith [(2, 0x032#11)] []) = .next (ran (.rdreg 0x02#7) (plainWith [(2, 0x032#11)] [])) ∧
    (ran (.rdreg 0x02#7) (plainWith [(2, 0x032#11)] [])).status = some 0#3 ∧
    (ran (.rdreg 0x02#7) (plainWith [(2, 0x032#11)] [])).result = some ((0x032#11).setWidth 16) ∧
    (ran (.rdreg 0x02#7) (plainWith [] [bring 0x06#8 0x5B#8])).status ≠ some 0#3 :=
  ⟨exec_ran _ _, by decide, by decide, by decide⟩
theorem witness_RegisterCodecOnTheReferenceTarget :
    (plainWith [(0, 0x555#11)] []).ReferenceBus ∧ (plainWith [(0, 0x555#11)] []).FourBitPoly ∧
    (0x400#11).getLsbD 10 = true ∧ (∀ j, j < 10 → (0x400#11).getLsbD j = false) :=
  ⟨plain_referenceBus _, by decide, by decide, by decide⟩
theorem witness_MaskedWriteOverwritesAStoreBetweenItsHalves :
    Reply.reference.isReference ∧
    (plainWith [(0, 0x555#11)]
      [.reference, { Reply.reference with others := [(0#7, 0x2AA#11)] }]).FourBitPoly ∧
    (plainWith [(0, 0x555#11)] [.reference, { Reply.reference with others := [(0#7, 0x2AA#11)] }]).bus =
      Reply.reference :: { Reply.reference with others := [(0#7, 0x2AA#11)] } :: [] :=
  ⟨by decide, by decide, rfl⟩
theorem witness_FieldMapAgreesWithItsTable :
    (∃ r ∈ fieldMap, r.1 = .subaddr ∧ r.1.mirrored = true) ∧
    (∃ row, (setterRows 0#16 0#16)[10]? = some row) ∧ (∃ g, getterRows[11]? = some g) ∧
    (Instr.getpTxfreq, Field.txfreq) ∈ physicalFields ∧ decode 0x3B0000000000#48 = .ok .getpTxfreq :=
  ⟨⟨_, List.mem_of_getElem? (i := 10) rfl, rfl, rfl⟩, ⟨_, rfl⟩, ⟨_, rfl⟩, by decide, by decide⟩
theorem witness_OnlyAddressedRegistersChange :
    (plainWith [(0, 0x555#11)] [fail]).SingleMaster ∧
    exec (.wrreg 0x02#7 0x032#11) (plainWith [(0, 0x555#11)] [fail]) =
      .next (ran (.wrreg 0x02#7 0x032#11) (plainWith [(0, 0x555#11)] [fail])) ∧
    0x03#7 ∉ stores (.wrreg 0x02#7 0x032#11) :=
  ⟨by decide, exec_ran _ _, by decide⟩

/-- The largest legal operand and the smallest illegal one of each setter (30_encoding.md rule R61). -/
theorem test_setter_domains :
    ((setterRows 1#16 0#16).map (·.legal) = [true, true, true, true, true, true, true, true, true, true, true]) ∧
    ((setterRows 2#16 0#16).map (·.legal) = [false, false, false, true, false, true, true, true, true, true, true]) ∧
    ((setterRows 95#16 0#16).map (·.legal))[3]? = some true ∧ ((setterRows 96#16 0#16).map (·.legal))[3]? = some false ∧
    ((setterRows 127#16 1#16).map (·.legal)).drop 5 = [true, true, true, true, true, false] ∧
    ((setterRows 128#16 1#16).map (·.legal)).drop 5 = [false, false, false, false, true, false] ∧
    ((setterRows 127#16 2#16).map (·.legal)).drop 5 = [true, true, false, false, true, false] ∧
    ((setterRows 255#16 0#16).map (·.legal))[9]? = some true ∧ ((setterRows 256#16 0#16).map (·.legal))[9]? = some false ∧
    ((setterRows 15#16 0#16).map (·.legal))[10]? = some true ∧ ((setterRows 16#16 0#16).map (·.legal))[10]? = some false := by
  decide

theorem witness_SetterRejectsOutOfDomainBeforeTheBus :
    ∃ row ∈ setterRows 96#16 0#16, row.instr = .setGain 96#16 ∧ row.legal = false :=
  ⟨_, List.mem_of_getElem? (i := 3) rfl, rfl, by decide⟩
theorem witness_SetterIsTwoDelayedMaskedWrites_range :
    ∃ row ∈ setterRows 128#16 0#16, row.instr = .setFgain1 128#16 ∧ row.legal = false :=
  ⟨_, List.mem_of_getElem? (i := 5) rfl, rfl, by decide⟩
theorem witness_SetterIsTwoDelayedMaskedWrites :
    ∃ row ∈ setterRows 95#16 0#16, row.legal = true ∧
      exec (.wrmsk row.shadow row.val row.mask) plain = .next (ran (.wrmsk row.shadow row.val row.mask) plain) ∧
      (ran (.wrmsk row.shadow row.val row.mask) plain).status = some 0#3 ∧
      (ran (.wrmsk row.shadow row.val row.mask) (plainWith [] [fail])).status ≠ some 0#3 ∧
      (ran (.wrmsk row.primary row.val row.mask) (plainWith [] [.reference, fail])).status ≠ some 0#3 :=
  ⟨_, List.mem_of_getElem? (i := 3) rfl, by decide, exec_ran _ _, by decide, by decide, by decide⟩
theorem witness_SetterOnTheReferenceTarget :
    (∃ row ∈ setterRows 127#16 1#16, row.instr = .setOffs1 1#16 127#16 ∧ row.legal = true) ∧
    (plainWith [(4, 0x305#11)] []).ReferenceBus ∧ (plainWith [(4, 0x305#11)] []).FourBitPoly :=
  ⟨⟨_, List.mem_of_getElem? (i := 7) rfl, rfl, by decide⟩, plain_referenceBus _, by decide⟩
theorem witness_SetterStateAfterATransportFault (k : Fin 4) :
    (∃ row ∈ setterRows 10#16 0#16, row.legal = true ∧
      exec row.instr (plainWith [] (List.replicate k Reply.reference ++ [fail])) =
        .next (ran row.instr (plainWith [] (List.replicate k Reply.reference ++ [fail])))) ∧
    (plainWith [] (List.replicate k Reply.reference ++ [fail])).FourBitPoly ∧
    (∀ j, j < k.val → ((plainWith [] (List.replicate k Reply.reference ++ [fail])).replyAt j).isReference) ∧
    ((plainWith [] (List.replicate k Reply.reference ++ [fail])).replyAt k).fault = some ⟨7⟩ ∧
    ((plainWith [] (List.replicate k Reply.reference ++ [fail])).replyAt k).others = [] := by
  refine ⟨⟨_, List.mem_of_getElem? (i := 3) rfl, by decide, exec_ran _ _⟩, by revert k; decide, ?_, ?_, ?_⟩ <;>
    revert k <;> decide
theorem witness_SetterStateAfterAnInvalidFrame :
    (∃ row ∈ setterRows 10#16 0#16, row.legal = true) ∧
    (plainWith [] [bring 0x06#8 0x58#8]).FourBitPoly ∧
    ((plainWith [] [bring 0x06#8 0x58#8]).replyAt 0).fault = none ∧
    ((plainWith [] [bring 0x06#8 0x58#8]).replyAt 0).others = [] ∧
    ((plainWith [] [bring 0x06#8 0x58#8]).replyAt 0).bytes = some (0x06#8, 0x58#8) ∧
    (plainWith [] [bring 0x06#8 0x58#8]).remainder (0x06#8 ++ 0x58#8) ≠ 0 ∧
    (∀ j, j < 2 → ((plainWith [] [.reference, .reference, bring 0x06#8 0x58#8]).replyAt j).isReference) ∧
    ((plainWith [] [.reference, .reference, bring 0x06#8 0x58#8]).replyAt 2).bytes = some (0x06#8, 0x58#8) :=
  ⟨⟨_, List.mem_of_getElem? (i := 3) rfl, by decide⟩, by decide, by decide, by decide, by decide, by decide, by decide,
    by decide⟩
theorem witness_SetterThenGetterReturnsTheOperand :
    plain.ReferenceBus ∧ plain.FourBitPoly ∧
    ∃ p ∈ (setterRows 15#16 1#16).zip (roundTrips 15#16 1#16), p.1.legal = true ∧ p.2.2.1 = .getSubaddr :=
  ⟨plain_referenceBus [], by decide, _, List.mem_of_getElem? (i := 10) rfl, by decide, rfl⟩
theorem witness_SettersLeaveEveryOtherFieldAlone :
    plain.ReferenceBus ∧ plain.FourBitPoly ∧
    (∃ row, (setterRows 1#16 0#16)[2]? = some row ∧ exec row.instr plain = .next (ran row.instr plain)) ∧
    (∃ g, getterRows[10]? = some g) ∧ 2 ≠ 10 :=
  ⟨plain_referenceBus [], by decide, ⟨_, rfl, exec_ran _ _⟩, ⟨_, rfl⟩, by decide⟩
theorem witness_OnlySettersDelayAndTheyAlwaysDo :
    (∃ row ∈ setterRows 1#16 0#16, exec row.instr plain = .next (ran row.instr plain) ∧
      (ran row.instr plain).status = some 0#3) ∧
    (∀ v sign, ∀ row ∈ setterRows v sign, Instr.wrreg 0#7 0#11 ≠ row.instr) ∧
    exec (.wrreg 0#7 0#11) plain = .next (ran (.wrreg 0#7 0#11) plain) :=
  ⟨⟨_, List.mem_of_getElem? (i := 0) rfl, exec_ran _ _, by decide⟩,
    fun v sign row h => by simp only [setterRows, List.mem_cons, List.not_mem_nil, or_false] at h; rcases h with h | h | h | h | h | h | h | h | h | h | h <;> subst h <;> simp,
    exec_ran _ _⟩
theorem witness_RawGetterResult :
    (plainWith [(0x6E, 0x3E8#11)] []).FourBitPoly ∧ (plainWith [(0x6E, 0x3E8#11)] []).reply.fault = none ∧
    (plainWith [(0x6E, 0x3E8#11)] []).remainder (0x7D#8 ++ 0x1F#8) = 0 ∧
    (plainWith [] [fail]).reply.fault = some ⟨7⟩ ∧ (plainWith [] [bring 0x06#8 0x58#8]).reply.fault = none ∧
    (plainWith [] [bring 0x06#8 0x58#8]).remainder (0x06#8 ++ 0x58#8) ≠ 0 ∧
    (plainWith [] [bring 0x06#8 0x58#8]).incoming 0x6E#7 = (0x06#8, 0x58#8) ∧
    ∃ g ∈ getterRows, g.instr = .getTxfreq ∧
      (plainWith [(0x6E, 0x3E8#11)] []).incoming g.addr = (0x7D#8, 0x1F#8) :=
  ⟨by decide, by decide, by decide, by decide, by decide, by decide, by decide, _, List.mem_of_getElem? (i := 11) rfl, rfl, by decide⟩
theorem witness_PhysicalGetterResult :
    (plainWith [(7, 0x4FF#11)] []).FourBitPoly ∧ (plainWith [(7, 0x4FF#11)] []).reply.fault = none ∧
    (plainWith [(7, 0x4FF#11)] []).remainder (0x9F#8 ++ 0xFB#8) = 0 ∧
    (plainWith [] [fail]).reply.fault = some ⟨7⟩ ∧ (plainWith [] [bring 0x06#8 0x58#8]).reply.fault = none ∧
    (plainWith [] [bring 0x06#8 0x58#8]).remainder (0x06#8 ++ 0x58#8) ≠ 0 ∧
    (plainWith [] [bring 0x06#8 0x58#8]).incoming 0x07#7 = (0x06#8, 0x58#8) ∧
    ∃ g ∈ physicalRows, g.instr = .getpBias ∧
      (plainWith [(7, 0x4FF#11)] []).incoming g.addr = (0x9F#8, 0xFB#8) :=
  ⟨by decide, by decide, by decide, by decide, by decide, by decide, by decide, _, List.mem_of_getElem? (i := 4) rfl, rfl, by decide⟩
theorem witness_GainGetterResultOrInconsistent_errors :
    (plainWith [] [fail]).FourBitPoly ∧ (plainWith [] [fail]).reply.fault = some ⟨7⟩ ∧
    (plainWith [] [bring 0x06#8 0x58#8]).FourBitPoly ∧ (plainWith [] [bring 0x06#8 0x58#8]).reply.fault = none ∧
    (plainWith [] [bring 0x06#8 0x58#8]).incoming 0x02#7 = (0x06#8, 0x58#8) ∧
    (plainWith [] [bring 0x06#8 0x58#8]).remainder (0x06#8 ++ 0x58#8) ≠ 0 := by decide
/-- Code 95, the last legal one: frame 0B FA. -/
theorem witness_GainGetterResultOrInconsistent_legal :
    (plainWith [(2, 0x05F#11)] []).FourBitPoly ∧ (plainWith [(2, 0x05F#11)] []).reply.fault = none ∧
    (plainWith [(2, 0x05F#11)] []).incoming 0x02#7 = (0x0B#8, 0xFA#8) ∧
    (plainWith [(2, 0x05F#11)] []).remainder (0x0B#8 ++ 0xFA#8) = 0 ∧
    95 = ((0x0B#8 ++ 0xFA#8 : Frame).extractLsb' 5 7).toNat := by decide
/-- Code 96, the first inconsistent one: frame 0C 1C. -/
theorem witness_GainGetterResultOrInconsistent_inconsistent :
    (plainWith [(2, 0x060#11)] []).FourBitPoly ∧ (plainWith [(2, 0x060#11)] []).reply.fault = none ∧
    (plainWith [(2, 0x060#11)] []).incoming 0x02#7 = (0x0C#8, 0x1C#8) ∧
    (plainWith [(2, 0x060#11)] []).remainder (0x0C#8 ++ 0x1C#8) = 0 ∧
    96 = ((0x0C#8 ++ 0x1C#8 : Frame).extractLsb' 5 7).toNat := by decide
theorem witness_ReadersPassOnTheErrorsOfTheirRead :
    (1#11 ≠ 0#11) ∧ (Instr.getpGain, 0x02#7) ∈ readers 0x02#7 1#11 ∧
    exec (.rdreg 0x02#7) (plainWith [] [fail]) = .next (ran (.rdreg 0x02#7) (plainWith [] [fail])) ∧
    (ran (.rdreg 0x02#7) (plainWith [] [fail])).status ≠ some 0#3 :=
  ⟨by decide, by decide, exec_ran _ _, by decide⟩
theorem witness_ReadersPerformExactlyOneRead :
    (1#11 ≠ 0#11) ∧ (Instr.getpGain, 0x02#7) ∈ readers 0x02#7 1#11 ∧
    exec .getpGain plain = .next (ran .getpGain plain) :=
  ⟨by decide, by decide, exec_ran _ _⟩
theorem witness_ConversionsWithTheDefaultConstants :
    Config.params.fgainStep = 1 / 800 ∧ Config.params.offsStep = 3 / 200000 ∧ Config.params.biasUnit = 1 / 2 ∧
    Config.params.txfStep = 20000 := ⟨rfl, rfl, rfl, rfl⟩
theorem witness_EffectiveGainOfAWellFormedTable : plain.cfg.wf ∧ (0 : Fin 96) < 95 := ⟨plain_cfg_wf, by decide⟩
theorem witness_ScenariosOneToFourOfTheSource :
    (plainWith [(0x6E, 0x3E8#11)] []).ReferenceBus ∧ (plainWith [(0x6E, 0x3E8#11)] []).cfg.wf ∧
    (plainWith [(0x6E, 0x3E8#11)] []).cfg.physFmt = .exact ∧
    (plainWith [(0x6E, 0x3E8#11)] []).cfg.offsStep = 3 / 200000 ∧
    (plainWith [(0x6E, 0x3E8#11)] []).cfg.biasUnit = 1 / 2 ∧ (plainWith [(0x6E, 0x3E8#11)] []).cfg.txfStep = 20000 ∧
    (plainWith [(0x6E, 0x3E8#11)] []).reg 0x6E#7 = 0x3E8#11 :=
  ⟨plain_referenceBus _, plain_cfg_wf, rfl, rfl, rfl, rfl, by decide⟩
theorem witness_TransportErrorsArePrecise :
    exec .getVdd (plainWith [] [fail]) = .next (ran .getVdd (plainWith [] [fail])) ∧
    (ran .getVdd (plainWith [] [fail])).status = some 3#3 ∧ (ran .getVdd plain).status ≠ some 3#3 :=
  ⟨exec_ran _ _, by decide, by decide⟩
theorem witness_TraceAccountsForEveryTransaction :
    exec (.setVdd 1#16) plain = .next (ran (.setVdd 1#16) plain) := exec_ran _ _
theorem witness_OperationsForgetEarlierResponses :
    (ran (.wrreg 0#7 0#11) { plain with status := some 4#3, tmp := some 5#11 }).trace =
      (ran (.wrreg 0#7 0#11) plain).trace ∧
    ({ plain with status := some 4#3, tmp := some 5#11 } : State).regs = plain.regs ∧
    ({ plain with status := some 4#3, tmp := some 5#11 } : State).status ≠ plain.status := by decide
theorem witness_DeviceAddressAndDelayLengthEnterNothing :
    exec .getVdd plain = .next (ran .getVdd plain) := exec_ran _ _
theorem witness_ConfigurationIsNeverWritten :
    exec (.setSubaddr 3#16) plain = .next (ran (.setSubaddr 3#16) plain) := exec_ran _ _
theorem plain_inv : plain.Inv := ⟨by decide, by decide, by decide, plain_cfg_wf⟩
theorem witness_EveryStepKeepsTheInvariant :
    ({ plain with cmds := [0x130000320000#48] } : State).Inv ∧
    ∃ t, step { plain with cmds := [0x130000320000#48] } = .next t ∧ t.cmdIdx = 1 :=
  ⟨plain_inv, _, rfl, by decide⟩
theorem witness_BlockResetTouchesNothingOutside :
    exec .getVdd plain.blockReset = .next (ran .getVdd plain.blockReset) := exec_ran _ _
theorem witness_StepRunsTheDecodedCommand :
    ({ plain with cmds := [0x130000320000#48] } : State).busy = false ∧
    ({ plain with cmds := [0x130000320000#48] } : State).stopped = false ∧
    decode 0x130000320000#48 = .ok (.setGain 50#16) ∧ (ran (.setGain 50#16) plain).status = some 0#3 ∧
    decode 0x130000600000#48 = .ok (.setGain 96#16) ∧ (ran (.setGain 96#16) plain).status ≠ some 0#3 := by decide
theorem witness_StepAnswersAnIllegalCommand :
    ({ plain with cmds := [0x000000000000#48] } : State).busy = false ∧
    ({ plain with cmds := [0x000000000000#48] } : State).stopped = false ∧
    decode 0x000000000000#48 = .error .unknownOpcode := by decide
theorem witness_HostStopsAtTheFirstErrorUntilANewProgram :
    (plain.busy = false ∧ plain.cmds = []) ∧
    ({ plain with stopped := true } : State).stopped = true ∧
    ∃ t, ({ plain with cmds := [0x130000600000#48] } : State).stopped = false ∧
      step { plain with cmds := [0x130000600000#48] } = .next t ∧ t.status ≠ some 0#3 :=
  ⟨by decide, rfl, _, rfl, rfl, by decide⟩
theorem witness_EncodedCommandRunsItsOperation : (Instr.rdmsk 0x02#7 1#11).wf = true := by decide
theorem witness_DecodeOfEncodeIsTheOperation : (Instr.crc 0#24 1#8 0#8).wf = true := by decide
theorem witness_EveryLegalWordIsTheEncodingOfItsOperation :
    decode 0x1700007F0001#48 = .ok (.setOffs1 1#16 127#16) := by decide

end Sys2Proof.Tests
end

section
/-! Frames and canonical CRC words (30_encoding.md rules R50 to R54): the rules of the accessors in Machine/Frame.lean,
and the statements O10 to O13. -/

namespace Sys2Proof.Machine

/-! ### Concatenations: the layouts of rules R50, R53 and R54 -/

/-- Shifting a zero-extended word loses no bits when the wider word has room for them. -/
theorem toNat_shiftLeft_setWidth {w n k : Nat} (x : BitVec w) (h : w + k ≤ n) :
    (x.setWidth n <<< k).toNat = x.toNat <<< k := by
  have hx : x.toNat <<< k < 2 ^ n :=
    (Nat.shiftLeft_lt x.isLt).trans_le (Nat.pow_le_pow_right (by decide) h)
  rw [BitVec.toNat_shiftLeft, BitVec.toNat_setWidth_of_le (by omega), Nat.mod_eq_of_lt hx]

theorem assemble_eq_append (p : Payload) (m : BitVec 2) (c : BitVec 3) : assemble p m c = p ++ m ++ c := by
  have h := BitVec.setWidth_append_append_eq_shiftLeft_setWidth_or (w''' := 16) (b := p) (b' := m) (b'' := c)
  rw [BitVec.setWidth_eq] at h
  exact h.symm

theorem toNat_assemble (p : Payload) (m : BitVec 2) (c : BitVec 3) :
    (assemble p m c).toNat = (p.toNat <<< 5) ||| (m.toNat <<< 3) ||| c.toNat := by
  rw [assemble_eq_append, BitVec.toNat_append, BitVec.toNat_append, Nat.shiftLeft_or_distrib, ← Nat.shiftLeft_add]

/-- The marker bits of an assembled frame are the ones put in (30_encoding.md rule R50). -/
theorem extractLsb'_marker_assemble (p : Payload) (m : BitVec 2) (c : BitVec 3) :
    (assemble p m c).extractLsb' 3 2 = m := by
  rw [assemble_eq_append, BitVec.extractLsb'_append_eq_of_le (by decide)]
  exact BitVec.extractLsb'_append_eq_right

theorem toNat_canon (p : Payload) :
    (canon p).toNat = ((p.toNat &&& 0x7F8) <<< 5) ||| (p.toNat &&& 0x007) := by
  rw [canon, BitVec.toNat_or, toNat_shiftLeft_setWidth _ (by decide), BitVec.toNat_setWidth_of_le (by decide)]
  rfl

theorem canon_eq_append (p : Payload) : canon p = p.extractLsb' 3 8 ++ 0#5 ++ p.extractLsb' 0 3 := by
  refine BitVec.eq_of_getLsbD_eq fun i hi => ?_
  rw [BitVec.getLsbD_append, BitVec.getLsbD_append]
  interval_cases i <;> simp [canon]

theorem wrword_eq_append (a : Addr) (v : Payload) : wrword a v = a ++ canon v := by
  have h := BitVec.setWidth_append_eq_shiftLeft_setWidth_or (w'' := 23) (b := a) (b' := canon v)
  rw [BitVec.setWidth_eq] at h
  have ha : a &&& 0x7F#7 = a := BitVec.and_allOnes
  rw [wrword, ha, h]

/-! ### The split of a frame (rule R52) -/

/-- Bits from `start` up to the top of a word are the word shifted right. -/
theorem toNat_extractLsb'_top {w start len : Nat} (x : BitVec w) (h : w ≤ start + len) :
    (x.extractLsb' start len).toNat = x.toNat >>> start := by
  have hx : x.toNat < 2 ^ start * 2 ^ len :=
    x.isLt.trans_le (by rw [← Nat.pow_add]; exact Nat.pow_le_pow_right (by decide) h)
  rw [BitVec.extractLsb'_toNat, Nat.mod_eq_of_lt]
  rw [Nat.shiftRight_eq_div_pow]
  exact Nat.div_lt_of_lt_mul hx

theorem toNat_frameCheck (f : Frame) : (frameCheck f).toNat = f.toNat &&& 0x7 :=
  (Nat.and_two_pow_sub_one_eq_mod f.toNat 3).symm

theorem toNat_framePayload (f : Frame) : (framePayload f).toNat = f.toNat >>> 5 :=
  toNat_extractLsb'_top f (by decide)

/-- The payload does not see the marker bits. -/
theorem framePayload_or_marker (f : Frame) : framePayload (f ||| 0x18#16) = framePayload f := by
  rw [framePayload, BitVec.extractLsb'_or]
  exact BitVec.or_zero

/-- The check code does not see the marker bits. -/
theorem frameCheck_or_marker (f : Frame) : frameCheck (f ||| 0x18#16) = frameCheck f := by
  rw [frameCheck, BitVec.extractLsb'_or]
  exact BitVec.or_zero

theorem frameValid_or_marker (poly : BitVec 4) (f : Frame) : frameValid poly (f ||| 0x18#16) = frameValid poly f := by
  rw [frameValid, framePayload_or_marker, frameCheck_or_marker, frameValid]

/-! ### The bytes of a frame (20_memory.md rule R33) -/

theorem toNat_frameOfBytes (b0 b1 : Byte) : (frameOfBytes (b0, b1)).toNat = (b0.toNat <<< 8) ||| b1.toNat :=
  BitVec.toNat_append b0 b1

theorem toNat_frameBytes_fst (f : Frame) : (frameBytes f).1.toNat = f.toNat >>> 8 :=
  toNat_extractLsb'_top f (by decide)

theorem toNat_frameBytes_snd (f : Frame) : (frameBytes f).2.toNat = f.toNat &&& 0xFF :=
  (Nat.and_two_pow_sub_one_eq_mod f.toNat 8).symm

/-! ### The check code the engine gives a 4-bit generator (40_crc.md rules R80, R83 and R90) -/

theorem crc_lt {poly : Nat} (word filler : Nat) (h : poly ≠ 0) : crc word poly filler < 2 ^ checkWidth poly := by
  rw [crc, if_neg h]
  exact Nat.and_lt_two_pow _ (Nat.sub_lt (Nat.two_pow_pos _) one_pos)

theorem eight_le_toNat_of_getLsbD_three {poly : BitVec 4} (h : poly.getLsbD 3 = true) : 8 ≤ poly.toNat :=
  Nat.ge_two_pow_of_testBit h

/-- A generator whose top bit is set has a check width of 3. -/
theorem checkWidth_of_getLsbD_three {poly : BitVec 4} (h : poly.getLsbD 3 = true) : checkWidth poly.toNat = 3 := by
  have h8 : 8 ≤ poly.toNat := eight_le_toNat_of_getLsbD_three h
  have h0 : poly.toNat ≠ 0 := by omega
  rw [checkWidth, bitlen, if_neg h0, Nat.add_sub_cancel]
  exact (Nat.log2_eq_iff h0).2 ⟨h8, poly.isLt⟩

theorem crc_lt_eight {poly : BitVec 4} (word filler : Nat) (h : poly.getLsbD 3 = true) :
    crc word poly.toNat filler < 2 ^ 3 := by
  have h8 := eight_le_toNat_of_getLsbD_three h
  simpa only [checkWidth_of_getLsbD_three h] using crc_lt word filler (show poly.toNat ≠ 0 by omega)

/-- The 3-bit remainder port of `crc_div` holds the engine's whole value. -/
theorem toNat_crcDiv {ww fw : Nat} {poly : BitVec 4} (word : BitVec ww) (fill : BitVec fw)
    (h : poly.getLsbD 3 = true) :
    (crcDiv ww 4 fw word poly fill).toNat = crc word.toNat poly.toNat fill.toNat := by
  rw [crcDiv, BitVec.toNat_ofNat]
  exact Nat.mod_eq_of_lt (crc_lt_eight _ _ h)

theorem toNat_writeFrame {poly : BitVec 4} (a : Addr) (v : Payload) (h : poly.getLsbD 3 = true) :
    (writeFrame poly a v).toNat = (v.toNat <<< 5) ||| 0x18 ||| crc (wrword a v).toNat poly.toNat 0 := by
  rw [writeFrame, toNat_assemble, writeCheck, toNat_crcDiv _ _ h]
  rfl

/-! ### The statements of the family 30_encoding.md on frames -/

/-- Settles O10: the three bit ranges are read off the concatenation `canon_eq_append`. -/
theorem readSideCanonicalWord : Obligations.ReadSideCanonicalWord := by
  refine ⟨fun p => ⟨?_, ?_, ?_, toNat_canon p⟩, by decide, by decide, by decide⟩ <;> rw [canon_eq_append]
  · rw [BitVec.append_assoc]
    exact BitVec.extractLsb'_append_eq_left
  · rw [BitVec.extractLsb'_append_eq_of_le (by decide)]
    exact BitVec.extractLsb'_append_eq_right
  · exact BitVec.extractLsb'_append_eq_right

/-- Settles O11: the address stands above the read-side word, so both parts are read off the concatenation. -/
theorem writeSideCanonicalWord : Obligations.WriteSideCanonicalWord := by
  refine ⟨fun a v => ?_, by decide, by decide, by decide⟩
  have ha : a.toNat &&& 0x7F = a.toNat :=
    (Nat.and_two_pow_sub_one_eq_mod a.toNat 7).trans (Nat.mod_eq_of_lt a.isLt)
  rw [wrword_eq_append, ha]
  exact ⟨BitVec.toNat_append a (canon v), BitVec.extractLsb'_append_eq_left, BitVec.extractLsb'_append_eq_right⟩

/-- Settles O12. The bound on the check code is what lets the 3-bit field of the frame hold it. -/
theorem writeFrameAssembly : Obligations.WriteFrameAssembly := fun _poly a v h =>
  ⟨crc_lt_eight _ _ h, toNat_writeFrame a v h, framePayload_assemble v marker _,
    extractLsb'_marker_assemble v marker _, toNat_frameBytes_fst _, toNat_frameBytes_snd _⟩

/-- Settles O13: payload, check code and validity of a frame are those of the frame with both marker bits set. -/
theorem readFrameSplitIgnoresTheMarker : Obligations.ReadFrameSplitIgnoresTheMarker := by
  refine ⟨toNat_frameOfBytes, fun f => ⟨toNat_frameCheck f, toNat_framePayload f⟩, fun poly f g h => ⟨?_, ?_⟩⟩
  · rw [← framePayload_or_marker f, h, framePayload_or_marker]
  · rw [← frameValid_or_marker poly f, h, frameValid_or_marker]

end Sys2Proof.Machine
end

section
/-! The CRC Engine and the operation CRC (40_crc.md rules R80 to R84, R90 and R91): bit lengths, the division loop,
the port of `crc_div`, and the statements O1 and O9. -/

namespace Sys2Proof.Machine

/-! ### Bit lengths (00_scope.md rule R5) -/

theorem bitlen_eq_size (x : Nat) : bitlen x = Nat.size x := by
  rcases eq_or_ne x 0 with rfl | hx
  · rfl
  · rw [bitlen, if_neg hx]
    refine le_antisymm (Nat.lt_size.2 (Nat.log2_self_le hx)) (Nat.size_le.2 Nat.lt_log2_self)

theorem bitlen_le {x k : Nat} : bitlen x ≤ k ↔ x < 2 ^ k := by
  rw [bitlen_eq_size, Nat.size_le]

theorem lt_bitlen {x k : Nat} : k < bitlen x ↔ 2 ^ k ≤ x := by
  rw [bitlen_eq_size, Nat.lt_size]

theorem bitlen_shiftLeft {x : Nat} (k : Nat) (hx : x ≠ 0) : bitlen (x <<< k) = bitlen x + k := by
  rw [bitlen_eq_size, bitlen_eq_size, Nat.size_shiftLeft hx]

theorem bitlen_pos {x : Nat} (hx : x ≠ 0) : 0 < bitlen x :=
  lt_bitlen.2 (Nat.one_le_iff_ne_zero.2 hx)

theorem testBit_of_bitlen_le {x i : Nat} (h : bitlen x ≤ i) : x.testBit i = false :=
  Nat.testBit_lt_two_pow (bitlen_le.1 h)

theorem testBit_of_bitlen_eq_succ {x m : Nat} (h : bitlen x = m + 1) : x.testBit m = true :=
  Nat.testBit_of_two_pow_le_and_two_pow_add_one_gt (lt_bitlen.1 (by omega)) (bitlen_le.1 h.le)

/-- Two numbers of the same bit length cancel their highest set bits. -/
theorem bitlen_xor_lt {x y : Nat} (hx : 0 < bitlen x) (h : bitlen y = bitlen x) : bitlen (x ^^^ y) < bitlen x := by
  obtain ⟨m, hm⟩ := Nat.exists_eq_succ_of_ne_zero hx.ne'
  rw [hm, Nat.lt_succ_iff, bitlen_le]
  refine Nat.lt_pow_two_of_testBit _ fun i hi => ?_
  rw [Nat.testBit_xor]
  rcases hi.eq_or_lt with rfl | hlt
  · rw [testBit_of_bitlen_eq_succ hm, testBit_of_bitlen_eq_succ (h.trans hm), Bool.xor_self]
  · rw [testBit_of_bitlen_le (by omega), testBit_of_bitlen_le (by omega), Bool.xor_self]

/-! ### The division loop (40_crc.md rules R80 to R84) -/

/-- The aligned polynomial has the working value's bit length, so every pass of the loop shortens it. -/
theorem bitlen_divPass_lt {poly w : Nat} (hp : poly ≠ 0) (h : checkWidth poly < bitlen w) :
    bitlen (divPass poly w) < bitlen w := by
  have hpos := bitlen_pos hp
  have hle : bitlen poly ≤ bitlen w := by rw [checkWidth] at h; omega
  refine bitlen_xor_lt (hpos.trans_le hle) ?_
  rw [bitlen_shiftLeft _ hp, Nat.add_sub_cancel' hle]

/-- As many passes as the working value has bits above the check width end the loop (rule R84). -/
theorem bitlen_divLoop_le {poly : Nat} (hp : poly ≠ 0) (fuel w : Nat) (h : bitlen w - checkWidth poly ≤ fuel) :
    bitlen (divLoop poly fuel w) ≤ checkWidth poly := by
  induction fuel generalizing w with
  | zero => exact Nat.sub_eq_zero_iff_le.1 (Nat.le_zero.1 h)
  | succ fuel ih =>
    rw [divLoop]
    split
    next hlt =>
      have := bitlen_divPass_lt hp hlt
      exact ih _ (by omega)
    next hge => exact Nat.le_of_not_lt hge

/-- The final mask of rule R83 changes nothing: the loop's end value already fits the check width. -/
theorem crc_eq_divLoop {poly : Nat} (word filler : Nat) (hp : poly ≠ 0) :
    crc word poly filler =
      divLoop poly (bitlen (workValue word poly filler)) (workValue word poly filler) := by
  rw [crc, if_neg hp]
  exact Nat.and_two_pow_sub_one_of_lt_two_pow (bitlen_le.1 (bitlen_divLoop_le hp _ _ (Nat.sub_le _ _)))

/-! ### The port of `crc_div` (rule R90) -/

theorem checkWidth_le_remWidth {pw : Nat} (poly : BitVec pw) : checkWidth poly.toNat ≤ remWidth pw := by
  have h : bitlen poly.toNat ≤ pw := bitlen_le.2 poly.isLt
  rw [checkWidth, remWidth]
  omega

/-- The remainder port is wide enough for the engine's whole value, whatever the widths of the module. -/
theorem toNat_crcDiv_of_ne_zero {ww pw fw : Nat} {poly : BitVec pw} (word : BitVec ww) (fill : BitVec fw)
    (hp : poly.toNat ≠ 0) : (crcDiv ww pw fw word poly fill).toNat = crc word.toNat poly.toNat fill.toNat := by
  rw [crcDiv, BitVec.toNat_ofNat]
  exact Nat.mod_eq_of_lt ((crc_lt _ _ hp).trans_le (Nat.pow_le_pow_right Nat.two_pos (checkWidth_le_remWidth poly)))

/-! ### The operation CRC (rule R91) -/

/-- An operation that completes straight after its acceptance used no reply and left REG and the trace alone. -/
theorem State.respond_accept (s : State) (r : Response) :
    s.accept.respond r = s.outcome s.bus s.regs [] 0#3 r.result r.phys none := by
  rw [State.outcome, List.append_nil]
  rfl

/-- An operation that fails straight after its acceptance used no reply and left REG and the trace alone. -/
theorem State.raiseError_accept (s : State) (e : Raise) :
    s.accept.raiseError e = s.outcome s.bus s.regs [] e.status none none e.cause := by
  rw [State.outcome, List.append_nil]
  rfl

theorem exec_crc_zero (word : BitVec 24) (fill : BitVec 8) (s : State) :
    exec (.crc word 0#8 fill) s = .next (s.outcome s.bus s.regs [] 5#3 none none none) :=
  congrArg Host.Outcome.next (s.raiseError_accept .illegal)

theorem exec_crc_of_ne_zero {poly : BitVec 8} (word : BitVec 24) (fill : BitVec 8) (s : State) (hp : poly ≠ 0#8) :
    exec (.crc word poly fill) s =
      .next (s.outcome s.bus s.regs [] 0#3 (some ((crcDiv 24 8 8 word poly fill).setWidth 16)) none none) := by
  rw [exec, execCrc, perform, if_neg hp, Res.finish_ok, State.respond_accept]

/-- RESULT holds the engine's value: its 7-bit port is zero-extended to 16 bits. -/
theorem toNat_crcResult {poly : BitVec 8} (word : BitVec 24) (fill : BitVec 8) (hp : poly ≠ 0#8) :
    ((crcDiv 24 8 8 word poly fill).setWidth 16).toNat = crc word.toNat poly.toNat fill.toNat := by
  rw [BitVec.toNat_setWidth_of_le (by decide), toNat_crcDiv_of_ne_zero _ _ (BitVec.toNat_ne.1 hp)]

theorem exec_crc {poly : BitVec 8} {word : BitVec 24} {fill : BitVec 8} (s : State) {r : Word16} (hp : poly ≠ 0#8)
    (hr : r.toNat = crc word.toNat poly.toNat fill.toNat) :
    exec (.crc word poly fill) s = .next (s.outcome s.bus s.regs [] 0#3 (some r) none none) := by
  have hport : (crcDiv 24 8 8 word poly fill).setWidth 16 = r :=
    BitVec.eq_of_toNat_eq ((toNat_crcResult word fill hp).trans hr.symm)
  rw [exec_crc_of_ne_zero word fill s hp, hport]

/-! ### The statements of the family 40_crc.md -/

/-- Settles O1: the mask bounds the result, and the loop's end value is within the mask. -/
theorem crcIsTheUnmaskedRemainderBelowTwoToTheN : Obligations.CrcIsTheUnmaskedRemainderBelowTwoToTheN :=
  fun word _poly filler h =>
    have hp := Nat.one_le_iff_ne_zero.1 h
    ⟨crc_lt word filler hp, crc_eq_divLoop word filler hp, by decide, by decide⟩

/-- Settles O9: the port of the 8-bit `crc_div` is 7 bits wide and holds the engine's whole value. -/
theorem crcOperationResult : Obligations.CrcOperationResult := by
  intro s word poly fill
  refine ⟨fun hp r hr => ⟨?_, exec_crc s hp hr⟩, fun hp => ⟨_, toNat_crcResult word fill hp⟩, ?_,
    exec_crc s (by decide) (by decide), exec_crc s (by decide) (by decide)⟩
  · rw [hr, ← toNat_crcDiv_of_ne_zero _ _ (BitVec.toNat_ne.1 hp)]
    exact (crcDiv 24 8 8 word poly fill).isLt
  · rintro rfl
    exact exec_crc_zero word fill s

end Sys2Proof.Machine
end

section
/-! The Register Codec on a bus that answers anything (41_regcodec.md rules R100, R103 and R105): what RDREG and WRREG
present, when a received frame is valid, and the statements O18 and O21. -/

namespace Sys2Proof.Machine

/-! ### A received frame (rules R100 and R105) -/

/-- With a generator of bit length 4 the 3-bit port of `crc_div` is zero exactly when the engine's value is. -/
theorem frameValid_iff_crc_eq_zero {poly : BitVec 4} (f : Frame) (h : poly.getLsbD 3 = true) :
    frameValid poly f = true ↔ crc (canon (framePayload f)).toNat poly.toNat (frameCheck f).toNat = 0 := by
  rw [frameValid, beq_iff_eq, readCheck, ← BitVec.toNat_inj, toNat_crcDiv _ _ h, BitVec.toNat_ofNat, Nat.zero_mod]

theorem State.frameValid_iff_remainder_eq_zero {s : State} (f : Frame) (h : s.FourBitPoly) :
    frameValid s.cfg.crcPoly f = true ↔ s.remainder f = 0 :=
  frameValid_iff_crc_eq_zero f h

/-- RESULT = F >> 5: the payload zero-extended to the port is the frame shifted right (rule R100). -/
theorem setWidth_framePayload (f : Frame) : (framePayload f).setWidth 16 = f >>> 5 := by
  refine BitVec.eq_of_toNat_eq ?_
  rw [BitVec.toNat_setWidth_of_le (by decide), toNat_framePayload, BitVec.toNat_ushiftRight]

/-- The 16-bit RESULT port tells two payloads apart. -/
theorem setWidth_payload_injective : Function.Injective fun p : Payload => p.setWidth 16 := fun p q h => by
  have hback := congrArg (BitVec.setWidth 11) h
  simpa using hback

/-! ### RDREG (rule R100) -/

/-- The end of RDREG's pseudocode: the payload read, zero-extended, is the result. -/
def Res.finishRead (r : Res Payload) : State :=
  (r.andThen fun p t => .ok ⟨some (p.setWidth 16), none⟩ t).finish

@[simp] theorem Res.finishRead_ok (p : Payload) (t : State) :
    (Res.ok p t).finishRead = t.respond ⟨some (p.setWidth 16), none⟩ := rfl
@[simp] theorem Res.finishRead_err (e : Raise) (t : State) : (Res.err e t).finishRead = t.raiseError e := rfl

theorem exec_rdreg (s : State) (a : Addr) :
    exec (.rdreg a) s = .next (s.accept.readRegister a).finishRead := rfl

theorem State.readRegister_of_fault {s : State} {c : Cause} (a : Addr) (h : s.reply.fault = some c) :
    s.readRegister a = .err (.transport c) (s.turn.record (.rdFault a c)) := by
  rw [State.readRegister, State.memRead_fault a h, Res.andThen_err]

theorem State.readRegister_of_invalid {s : State} (a : Addr) (h : s.reply.fault = none)
    (hv : ¬ frameValid s.cfg.crcPoly (frameOfBytes (s.incoming a)) = true) :
    s.readRegister a = .err (.integrity a (frameOfBytes (s.incoming a)))
      ((s.turn.setFrm (frameOfBytes (s.incoming a))).record (.rd a (s.incoming a).1 (s.incoming a).2)) := by
  rw [State.readRegister, State.memRead_completes a h, Res.andThen_ok]
  exact if_neg hv

theorem State.readRegister_of_valid {s : State} (a : Addr) (h : s.reply.fault = none)
    (hv : frameValid s.cfg.crcPoly (frameOfBytes (s.incoming a)) = true) :
    s.readRegister a = .ok (framePayload (frameOfBytes (s.incoming a)))
      ((s.turn.setFrm (frameOfBytes (s.incoming a))).record (.rd a (s.incoming a).1 (s.incoming a).2)) := by
  rw [State.readRegister, State.memRead_completes a h, Res.andThen_ok]
  exact if_pos hv

theorem exec_rdreg_of_fault {s : State} {c : Cause} (a : Addr) (h : s.reply.fault = some c) :
    exec (.rdreg a) s =
      .next (s.outcome s.turn.bus s.turn.regs [.rdFault a c] 3#3 none none (some c)) := by
  rw [exec_rdreg, State.readRegister_of_fault (s := s.accept) a h]
  rfl

theorem exec_rdreg_of_invalid {s : State} (a : Addr) (h : s.reply.fault = none)
    (hv : ¬ frameValid s.cfg.crcPoly (frameOfBytes (s.incoming a)) = true) :
    exec (.rdreg a) s =
      .next (s.outcome s.turn.bus s.turn.regs [.rd a (s.incoming a).1 (s.incoming a).2] 1#3 none none none) := by
  rw [exec_rdreg, State.readRegister_of_invalid (s := s.accept) a h hv]
  rfl

theorem exec_rdreg_of_valid {s : State} (a : Addr) (h : s.reply.fault = none)
    (hv : frameValid s.cfg.crcPoly (frameOfBytes (s.incoming a)) = true) :
    exec (.rdreg a) s =
      .next (s.outcome s.turn.bus s.turn.regs [.rd a (s.incoming a).1 (s.incoming a).2] 0#3
        (some (frameOfBytes (s.incoming a) >>> 5)) none none) := by
  rw [exec_rdreg, State.readRegister_of_valid (s := s.accept) a h hv, ← setWidth_framePayload]
  rfl

/-! ### WRREG after other pseudocode (rules R101 and R103) -/

/-- The end of WRREG's and WRMSK's pseudocode: nothing is presented but the status. -/
def Res.finishWrite (r : Res Unit) : State := (r.andThen fun _ t => .ok .silent t).finish

@[simp] theorem Res.finishWrite_err (e : Raise) (t : State) : (Res.err e t).finishWrite = t.raiseError e := rfl

theorem exec_wrreg (s : State) (a : Addr) (v : Payload) :
    exec (.wrreg a v) s = .next (s.accept.writeRegister a v).finishWrite := rfl

theorem exec_wrmsk (s : State) (a : Addr) (v m : Payload) :
    exec (.wrmsk a v m) s = .next (s.accept.writeMasked a v m).finishWrite := rfl

/-- WRREG's pseudocode ends alike whether it starts as a command of its own or inside another operation:
acceptance sets only the response and the transient state, and the end overwrites both. -/
theorem State.finishWrite_writeRegister_accept (s : State) (a : Addr) (v : Payload) :
    (s.accept.writeRegister a v).finishWrite = (s.writeRegister a v).finishWrite := by
  cases h : s.reply.fault with
  | some c =>
    rw [State.writeRegister, State.writeRegister, State.memWrite_fault a _ h,
      State.memWrite_fault a _ (s := s.accept) h]
    rfl
  | none =>
    rw [State.writeRegister, State.writeRegister, State.memWrite_completes a _ h,
      State.memWrite_completes a _ (s := s.accept) h]
    rfl

/-- WRMSK's pseudocode once its read half has raised. -/
theorem State.writeMasked_of_err {s t : State} {a : Addr} {e : Raise} (v m : Payload)
    (h : s.readRegister a = .err e t) : s.writeMasked a v m = .err e t := by
  rw [State.writeMasked, h, Res.andThen_err]

/-- WRMSK's pseudocode once its read half has returned `p`. -/
theorem State.writeMasked_of_ok {s t : State} {a : Addr} {p : Payload} (v m : Payload)
    (h : s.readRegister a = .ok p t) :
    s.writeMasked a v m = (t.setTmp p).writeRegister a ((p &&& ~~~m) ||| (v &&& m)) := by
  rw [State.writeMasked, h, Res.andThen_ok, mergeField]

/-! ### The statements of the family 41_regcodec.md -/

/-- Settles O18: the codec's check of the received frame is the test of its remainder. -/
theorem readRegisterOutcome : Obligations.ReadRegisterOutcome := by
  intro s a hpoly
  refine ⟨fun c hc => exec_rdreg_of_fault a hc, fun hf b0 b1 hb => ?_⟩
  obtain ⟨rfl, rfl⟩ := Prod.ext_iff.1 hb
  have hvalid := State.frameValid_iff_remainder_eq_zero (frameOfBytes (s.incoming a)) hpoly
  exact ⟨fun hr => exec_rdreg_of_invalid a hf (mt hvalid.1 hr), fun hr => exec_rdreg_of_valid a hf (hvalid.2 hr)⟩

/-- Settles O21, by what the read half answers: WRMSK hands an error on as RDREG does, and after a payload it runs
WRREG's pseudocode from a state that differs from RDREG's in the response and the transient state only. -/
theorem maskedWriteIsReadMergeWrite : Obligations.MaskedWriteIsReadMergeWrite := by
  intro s u a v m hu
  rw [exec_rdreg] at hu
  cases hr : s.accept.readRegister a with
  | err e t =>
    rw [hr, Res.finishRead_err] at hu
    obtain rfl : t.raiseError e = u := Host.Outcome.next.inj hu
    refine ⟨fun _ => ?_, fun p _ hp => ?_⟩
    · rw [exec_wrmsk, State.writeMasked_of_err v m hr, Res.finishWrite_err]
    · rw [State.raiseError_result] at hp
      cases hp
  | ok q t =>
    rw [hr, Res.finishRead_ok] at hu
    obtain rfl : t.respond ⟨some (q.setWidth 16), none⟩ = u := Host.Outcome.next.inj hu
    refine ⟨fun hs => absurd (State.respond_status ..) hs, fun p _ hp => ?_⟩
    obtain rfl : q = p := setWidth_payload_injective (Option.some.inj hp)
    have haccept : (t.setTmp q).accept = (t.respond ⟨some (q.setWidth 16), none⟩).accept := rfl
    rw [exec_wrmsk, State.writeMasked_of_ok v m hr, exec_wrreg, ← State.finishWrite_writeRegister_accept, haccept]

end Sys2Proof.Machine
end

section
/-! The setters on a bus that answers anything (42_field_setters.md rules R120 to R132): each row of `setterRows`
against the field map it was not written from, the paired write as two WRMSK and two delays, and the statements O26
and O27. -/

namespace Sys2Proof.Machine

/-! ### WRMSK inside other pseudocode (rules R103 and R120) -/

theorem State.raiseError_status_ne_ok (s : State) (e : Raise) : (s.raiseError e).status ≠ some 0#3 := by
  cases e <;> simp

@[simp] theorem Res.finishWrite_ok (t : State) : (Res.ok () t).finishWrite = t.respond .silent := rfl

/-- An error ends the operation in its own state: what would have come next does not run. -/
theorem Res.finishWrite_andThen_of_status_ne {r : Res Unit} (k : Unit → State → Res Unit)
    (h : r.finishWrite.status ≠ some 0#3) : (r.andThen k).finishWrite = r.finishWrite := by
  cases r with
  | ok _ t => exact absurd (t.respond_status .silent) h
  | err e t => rfl

/-- STATUS tells an error from a completion. -/
theorem Res.eq_ok_of_finishWrite_status {r : Res Unit} (h : r.finishWrite.status = some 0#3) : ∃ t, r = .ok () t := by
  cases r with
  | ok _ t => exact ⟨t, rfl⟩
  | err e t => exact absurd h (t.raiseError_status_ne_ok e)

/-- A delay at the end adds its event to the state presented, and nothing else. -/
theorem Res.finishWrite_andThen_delay {r : Res Unit} (h : r.finishWrite.status = some 0#3) :
    (r.andThen fun _ u => .ok () u.delay).finishWrite =
      { r.finishWrite with trace := r.finishWrite.trace ++ [.dly] } := by
  obtain ⟨u, rfl⟩ := Res.eq_ok_of_finishWrite_status h
  rfl

/-- The response and the transient state WRREG's pseudocode starts with do not show when it has ended. -/
theorem State.finishWrite_writeRegister_congr {s t : State} (a : Addr) (v : Payload) (h : s.accept = t.accept) :
    (s.writeRegister a v).finishWrite = (t.writeRegister a v).finishWrite := by
  rw [← s.finishWrite_writeRegister_accept, h, t.finishWrite_writeRegister_accept]

/-- WRMSK's pseudocode ends alike whether it starts as a command of its own or inside another operation. -/
theorem State.finishWrite_writeMasked_accept (s : State) (a : Addr) (v m : Payload) :
    (s.accept.writeMasked a v m).finishWrite = (s.writeMasked a v m).finishWrite := by
  rcases s.readRegister_cases a with ⟨c, hf, h⟩ | ⟨hf, hv, h⟩ | ⟨hf, hv, h⟩
  · rw [State.writeMasked_of_err v m h,
      State.writeMasked_of_err v m (State.readRegister_of_fault (s := s.accept) a hf)]
    rfl
  · rw [State.writeMasked_of_err v m h,
      State.writeMasked_of_err v m (State.readRegister_of_invalid (s := s.accept) a hf (Bool.eq_false_iff.1 hv))]
    rfl
  · rw [State.writeMasked_of_ok v m h,
      State.writeMasked_of_ok v m (State.readRegister_of_valid (s := s.accept) a hf hv)]
    exact State.finishWrite_writeRegister_congr a _ rfl

/-- WRMSK as the command after a completed piece of pseudocode and a delay answers as the same WRMSK inside it. -/
theorem exec_wrmsk_after_delay (t : State) (a : Addr) (v m : Payload) :
    exec (.wrmsk a v m) { t.respond .silent with trace := (t.respond .silent).trace ++ [.dly] } =
      .next (t.delay.writeMasked a v m).finishWrite := by
  rw [exec_wrmsk, ← t.delay.finishWrite_writeMasked_accept]
  rfl

/-! ### The field values of the rows (rules R122, R124, R129 and R130) -/

theorem eq_zero_or_one_of_le_one {v : Word16} (h : v ≤ 1#16) : v = 0#16 ∨ v = 1#16 := by
  bv_omega

/-- `1 - V` at bit 9: AGC is enabled by a clear bit (rule R124). -/
theorem agcValue_shiftLeft {v : Word16} (h : v ≤ 1#16) :
    agcValue v <<< Field.agc.shift = if v = 1#16 then 0x000#11 else 0x200#11 := by
  obtain rfl | rfl := eq_zero_or_one_of_le_one h <;> decide

/-- `(M << 7) | V` at bit 0 is, for a sign of 0 or 1, the magnitude with the sign bit above it (rule R129). -/
theorem offsetValue_shiftLeft_zero {sign : Word16} (mag : Word16) (h : sign ≤ 1#16) :
    offsetValue sign mag <<< 0 = signMagnitude sign mag := by
  rw [BitVec.shiftLeft_zero]
  obtain rfl | rfl := eq_zero_or_one_of_le_one h
  · exact BitVec.zero_or
  · rfl

/-! ### The rows against the model (rules R120 to R132) -/

/-- The row says of its operation what the model's template does for field `f` with the domain check `legal` and the
field value `fv`. -/
structure SetterRow.Describes (row : SetterRow) (f : Field) (legal : Bool) (fv : Payload) : Prop where
  exec_eq : ∀ s, exec row.instr s = perform (fun t => t.setField f legal fv) s
  legal_eq : legal = row.legal
  shadow_eq : f.shadow = row.shadow
  primary_eq : f.primary = row.primary
  mask_eq : f.mask = row.mask
  val_eq : row.legal = true → fv <<< f.shift = row.val

/-- Every row of the spec's table describes its setter. -/
theorem SetterRow.exists_describes {v sign : Word16} {row : SetterRow} (h : row ∈ setterRows v sign) :
    ∃ f legal fv, row.Describes f legal fv := by
  simp only [setterRows, List.mem_cons, List.not_mem_nil, or_false] at h
  rcases h with rfl | rfl | rfl | rfl | rfl | rfl | rfl | rfl | rfl | rfl | rfl
  · exact ⟨.vdd, _, _, fun _ => rfl, rfl, rfl, rfl, rfl, fun _ => BitVec.shiftLeft_zero _⟩
  · exact ⟨.outmode, _, _, fun _ => rfl, rfl, rfl, rfl, rfl, fun _ => rfl⟩
  · exact ⟨.agc, _, _, fun _ => rfl, rfl, rfl, rfl, rfl, fun hl => agcValue_shiftLeft (of_decide_eq_true hl)⟩
  · exact ⟨.gain, _, _, fun _ => rfl, rfl, rfl, rfl, rfl, fun _ => BitVec.shiftLeft_zero _⟩
  · exact ⟨.boost, _, _, fun _ => rfl, rfl, rfl, rfl, rfl, fun _ => rfl⟩
  · exact ⟨.fgain1, _, _, fun _ => rfl, rfl, rfl, rfl, rfl, fun _ => BitVec.shiftLeft_zero _⟩
  · exact ⟨.fgain2, _, _, fun _ => rfl, rfl, rfl, rfl, rfl, fun _ => BitVec.shiftLeft_zero _⟩
  · exact ⟨.offs1, _, _, fun _ => rfl, rfl, rfl, rfl, rfl, fun hl =>
      offsetValue_shiftLeft_zero v (of_decide_eq_true (Bool.and_eq_true_iff.1 hl).2)⟩
  · exact ⟨.offs2, _, _, fun _ => rfl, rfl, rfl, rfl, rfl, fun hl =>
      offsetValue_shiftLeft_zero v (of_decide_eq_true (Bool.and_eq_true_iff.1 hl).2)⟩
  · exact ⟨.bias, _, _, fun _ => rfl, rfl, rfl, rfl, rfl, fun _ => BitVec.shiftLeft_zero _⟩
  · exact ⟨.subaddr, _, _, fun _ => rfl, rfl, rfl, rfl, rfl, fun _ => rfl⟩

/-- The paired write of rule R120 with the addresses, the value and the mask of the row. -/
def SetterRow.write (row : SetterRow) (s : State) : Res Unit :=
  (s.writeMasked row.shadow row.val row.mask).andThen fun _ t =>
    (t.delay.writeMasked row.primary row.val row.mask).andThen fun _ u => .ok () u.delay

/-- Rule R121: the range check comes before the bus. -/
theorem exec_setter_of_illegal {v sign : Word16} {row : SetterRow} (s : State) (h : row ∈ setterRows v sign)
    (hl : row.legal = false) : exec row.instr s = .next (s.outcome s.bus s.regs [] 2#3 none none none) := by
  obtain ⟨f, legal, fv, d⟩ := SetterRow.exists_describes h
  rw [d.exec_eq, d.legal_eq, hl]
  exact congrArg Host.Outcome.next (s.raiseError_accept .range)

/-- Rule R120: a setter in its domain performs the paired write of its row and nothing else. -/
theorem exec_setter_of_legal {v sign : Word16} {row : SetterRow} (s : State) (h : row ∈ setterRows v sign)
    (hl : row.legal = true) : exec row.instr s = .next (row.write s.accept).finishWrite := by
  obtain ⟨f, legal, fv, d⟩ := SetterRow.exists_describes h
  rw [d.exec_eq, d.legal_eq, hl, SetterRow.write, ← d.shadow_eq, ← d.primary_eq, ← d.mask_eq, ← d.val_eq hl]
  rfl

/-! ### The statements of the family 42_field_setters.md -/

/-- Settles O27, by what the shadow's WRMSK and then the primary's answer. -/
theorem setterIsTwoDelayedMaskedWrites : Obligations.SetterIsTwoDelayedMaskedWrites := by
  intro s v sign row hrow
  refine ⟨exec_setter_of_illegal s hrow, fun hl u hu => ?_⟩
  rw [exec_wrmsk] at hu
  obtain rfl := Host.Outcome.next.inj hu
  rw [exec_setter_of_legal s hrow hl]
  refine ⟨fun hs => congrArg _ (Res.finishWrite_andThen_of_status_ne _ hs), fun hs w hw => ?_⟩
  obtain ⟨t, ht⟩ := Res.eq_ok_of_finishWrite_status hs
  rw [ht, Res.finishWrite_ok, exec_wrmsk_after_delay] at hw
  obtain rfl := Host.Outcome.next.inj hw
  rw [SetterRow.write, ht, Res.andThen_ok]
  exact ⟨fun hw => congrArg _ (Res.finishWrite_andThen_of_status_ne _ hw),
    fun hw => congrArg _ (Res.finishWrite_andThen_delay hw)⟩

/-- Settles O26: the error is raised in the accepted state, before any transaction. -/
theorem setterRejectsOutOfDomainBeforeTheBus : Obligations.SetterRejectsOutOfDomainBeforeTheBus :=
  fun s _v _sign _row hrow hl => exec_setter_of_illegal s hrow hl

end Sys2Proof.Machine
end

section
/-! The getters on a bus that answers anything (43_field_getters.md rules R150 to R171): what an operation that begins
with one RDREG presents, the bits a field's mask selects, each row of `getterRows` and `physicalRows` against the field
map it was not written from, and the statements O34, O35 and O36. -/

namespace Sys2Proof.Machine

/-! ### Operations that begin with one register read (rule R150) -/

theorem Res.andThen_assoc {α β γ : Type} (r : Res α) (j : α → State → Res β) (k : β → State → Res γ) :
    (r.andThen j).andThen k = r.andThen fun x t => (j x t).andThen k := by
  cases r with
  | ok x t => rfl
  | err e t => rfl

/-- RDMSK's pseudocode inside another operation is RDREG's, with the field selected from the payload (rule R102). -/
theorem State.readMasked_andThen {β : Type} (s : State) (a : Addr) (m : Payload) (k : Payload → State → Res β) :
    (s.readMasked a m).andThen k = (s.readRegister a).andThen fun p t => k (selectField p m) t :=
  (s.readRegister a).andThen_assoc _ k

/-- The operation `i` is RDREG's pseudocode at `a`, then `k` on the payload read. -/
def ReadsThen (i : Instr) (a : Addr) (k : Payload → State → Res Response) : Prop :=
  ∀ s, exec i s = perform (fun t => (t.readRegister a).andThen k) s

/-- The state a read of `a` leaves inside an operation when it brings `b0` and `b1`. -/
def State.received (s : State) (a : Addr) (b0 b1 : Byte) : State :=
  (s.turn.setFrm (frameOfBytes (b0, b1))).record (.rd a b0 b1)

@[simp] theorem State.received_cfg (s : State) (a : Addr) (b0 b1 : Byte) : (s.received a b0 b1).cfg = s.cfg := rfl

/-- An operation that completes straight after its read used one reply, stored nothing and added one event. -/
theorem State.respond_received (s : State) (a : Addr) (b0 b1 : Byte) (r : Response) :
    (s.accept.received a b0 b1).respond r =
      s.outcome s.turn.bus s.turn.regs [.rd a b0 b1] 0#3 r.result r.phys none := rfl

/-- An operation that fails straight after its read used one reply, stored nothing and added one event. -/
theorem State.raiseError_received (s : State) (a : Addr) (b0 b1 : Byte) (e : Raise) :
    (s.accept.received a b0 b1).raiseError e =
      s.outcome s.turn.bus s.turn.regs [.rd a b0 b1] e.status none none e.cause := rfl

theorem ReadsThen.exec_of_fault {i : Instr} {a : Addr} {k : Payload → State → Res Response} {s : State} {c : Cause}
    (hi : ReadsThen i a k) (hc : s.reply.fault = some c) :
    exec i s = .next (s.outcome s.turn.bus s.turn.regs [.rdFault a c] 3#3 none none (some c)) := by
  rw [hi, perform, State.readRegister_of_fault (s := s.accept) a hc, Res.andThen_err]
  rfl

theorem ReadsThen.exec_of_remainder_ne_zero {i : Instr} {a : Addr} {k : Payload → State → Res Response} {s : State}
    {b0 b1 : Byte} (hi : ReadsThen i a k) (hpoly : s.FourBitPoly) (hf : s.reply.fault = none)
    (hb : s.incoming a = (b0, b1)) (hr : s.remainder (b0 ++ b1) ≠ 0) :
    exec i s = .next (s.outcome s.turn.bus s.turn.regs [.rd a b0 b1] 1#3 none none none) := by
  obtain ⟨rfl, rfl⟩ := Prod.ext_iff.1 hb
  have hv := mt (State.frameValid_iff_remainder_eq_zero _ hpoly).1 hr
  rw [hi, perform, State.readRegister_of_invalid (s := s.accept) a hf hv, Res.andThen_err, Res.finish_err]
  exact congrArg _ (s.raiseError_received a _ _ (.integrity a _))

theorem ReadsThen.exec_of_remainder_eq_zero {i : Instr} {a : Addr} {k : Payload → State → Res Response} {s : State}
    {b0 b1 : Byte} (hi : ReadsThen i a k) (hpoly : s.FourBitPoly) (hf : s.reply.fault = none)
    (hb : s.incoming a = (b0, b1)) (hr : s.remainder (b0 ++ b1) = 0) :
    exec i s = .next (k ((b0 ++ b1 : Frame).extractLsb' 5 11) (s.accept.received a b0 b1)).finish := by
  obtain ⟨rfl, rfl⟩ := Prod.ext_iff.1 hb
  have hv := (State.frameValid_iff_remainder_eq_zero _ hpoly).2 hr
  rw [hi, perform, State.readRegister_of_valid (s := s.accept) a hf hv, Res.andThen_ok]
  rfl

/-! ### The bits a mask selects (30_encoding.md rule R61, 41_regcodec.md rule R102) -/

/-- Every mask of the field map is one run of ones, the field's width long, from the field's shift up. -/
theorem Field.getLsbD_mask (f : Field) (i : Fin 11) :
    f.mask.getLsbD i = decide (f.shift ≤ i ∧ i < f.shift + f.width) := by
  revert i
  cases f <;> decide

/-- A masked read gives the bits of the field, right-aligned. -/
theorem Field.selectField_mask (f : Field) (p : Payload) :
    selectField p f.mask = (p.extractLsb' f.shift f.width).setWidth 11 := by
  refine BitVec.eq_of_getLsbD_eq fun i hi => ?_
  rw [selectField, ← Field.shift, BitVec.getLsbD_ushiftRight, BitVec.getLsbD_and, BitVec.getLsbD_setWidth,
    BitVec.getLsbD_extractLsb']
  rcases lt_or_ge (f.shift + i) 11 with h | h
  · rw [f.getLsbD_mask ⟨f.shift + i, h⟩]
    simp [hi, Bool.and_comm]
  · simp [BitVec.getLsbD_of_ge p _ h]

theorem Field.width_le (f : Field) : f.width ≤ 11 := by
  cases f <;> decide

theorem Field.toNat_selectField (f : Field) (p : Payload) :
    (selectField p f.mask).toNat = (p.extractLsb' f.shift f.width).toNat := by
  rw [f.selectField_mask, BitVec.toNat_setWidth_of_le f.width_le]

/-- RESULT of a getter without post-processing: the field's bits, zero-extended. -/
theorem Field.setWidth_selectField (f : Field) (p : Payload) :
    (selectField p f.mask).setWidth 16 = (p.extractLsb' f.shift f.width).setWidth 16 :=
  BitVec.eq_of_toNat_eq (by
    rw [BitVec.toNat_setWidth_of_le (by decide), f.toNat_selectField,
      BitVec.toNat_setWidth_of_le (f.width_le.trans (by decide))])

/-- TX frequency is the whole payload (rule R162). -/
theorem selectField_txfreq (p : Payload) : selectField p Field.txfreq.mask = p :=
  (Field.selectField_mask .txfreq p).trans ((BitVec.setWidth_eq _).trans BitVec.extractLsb'_eq_self)

/-- The enable is the inverse of bit 9 (rule R153). -/
theorem setWidth_one_sub_selectField_agc (p : Payload) :
    (1#11 - selectField p Field.agc.mask).setWidth 16 = if p.getLsbD 9 then 0#16 else 1#16 := by
  have hsel : selectField p Field.agc.mask = (p.extractLsb' 9 1).setWidth 11 := Field.selectField_mask .agc p
  rw [hsel, BitVec.getLsbD_eq_extractLsb']
  obtain h | h := BitVec.eq_zero_or_eq_one (p.extractLsb' 9 1) <;> rw [h] <;> rfl

/-! ### The raw getters (rules R151 to R162) -/

theorem readsThen_of_getField {i : Instr} {result : Payload → Word16} {post : Payload → Payload} (f : Field)
    (hexec : ∀ s, exec i s = perform (fun t => t.getField f post) s)
    (hresult : ∀ p, (post (selectField p f.mask)).setWidth 16 = result p) :
    ReadsThen i f.primary fun p t => .ok ⟨some (result p), none⟩ t := by
  intro s
  simp only [hexec, State.getField, State.readMasked_andThen, hresult]

/-- Every row of the spec's table describes its getter. -/
theorem GetterRow.readsThen {g : GetterRow} (h : g ∈ getterRows) :
    ReadsThen g.instr g.addr fun p t => .ok ⟨some (g.result p), none⟩ t := by
  simp only [getterRows, List.mem_cons, List.not_mem_nil, or_false] at h
  rcases h with rfl | rfl | rfl | rfl | rfl | rfl | rfl | rfl | rfl | rfl | rfl | rfl
  · exact readsThen_of_getField .vdd (fun _ => rfl) (Field.setWidth_selectField .vdd)
  · exact readsThen_of_getField .outmode (fun _ => rfl) (Field.setWidth_selectField .outmode)
  · exact readsThen_of_getField .agc (fun _ => rfl) setWidth_one_sub_selectField_agc
  · exact readsThen_of_getField .gain (fun _ => rfl) (Field.setWidth_selectField .gain)
  · exact readsThen_of_getField .boost (fun _ => rfl) (Field.setWidth_selectField .boost)
  · exact readsThen_of_getField .fgain1 (fun _ => rfl) (Field.setWidth_selectField .fgain1)
  · exact readsThen_of_getField .fgain2 (fun _ => rfl) (Field.setWidth_selectField .fgain2)
  · exact readsThen_of_getField .offs1 (fun _ => rfl) (Field.setWidth_selectField .offs1)
  · exact readsThen_of_getField .offs2 (fun _ => rfl) (Field.setWidth_selectField .offs2)
  · exact readsThen_of_getField .bias (fun _ => rfl) (Field.setWidth_selectField .bias)
  · exact readsThen_of_getField .subaddr (fun _ => rfl) (Field.setWidth_selectField .subaddr)
  · exact readsThen_of_getField .txfreq (fun _ => rfl) fun p => congrArg _ (selectField_txfreq p)

/-! ### The conversions (rules R165 to R171) -/

/-- `1 - 2 × sbit` is the sign of rule R167. -/
theorem offsOfCode_eq_offsetFraction {code p : Payload} (cfg : Params) (h : code = (p.extractLsb' 0 8).setWidth 11) :
    offsOfCode cfg code = offsetFraction cfg p := by
  have hsign : code.extractLsb' 7 1 = p.extractLsb' 7 1 := by
    rw [h, BitVec.extractLsb'_setWidth_of_le (by decide), BitVec.extractLsb'_extractLsb'_of_le (by decide)]
  have hmag : code.extractLsb' 0 7 = p.extractLsb' 0 7 := by
    rw [h, BitVec.extractLsb'_setWidth_of_le (by decide), BitVec.extractLsb'_extractLsb'_of_le (by decide)]
  rw [offsOfCode, offs, offsetFraction, hsign, hmag, BitVec.getLsbD_eq_extractLsb']
  obtain hs | hs := BitVec.eq_zero_or_eq_one (p.extractLsb' 7 1)
  · simp [hs]
  · rw [hs]
    norm_num

/-- `4^(code >> 6)` and `code & 0x3F` are `2^(2e)` and `b` of rule R169. -/
theorem bias_eq {code : Nat} {p : Payload} (cfg : Params) (h : code = (p.extractLsb' 0 8).toNat) :
    bias cfg code =
      (2 : Rat) ^ (2 * (p.extractLsb' 6 2).toNat) * ((p.extractLsb' 0 6).toNat : Rat) * cfg.biasUnit := by
  have hexp : code >>> 6 = (p.extractLsb' 6 2).toNat := by
    rw [h, ← toNat_extractLsb'_top (len := 2) _ (by decide), BitVec.extractLsb'_extractLsb'_of_le (by decide)]
  have hbase : code &&& 0x3F = (p.extractLsb' 0 6).toNat := by
    rw [h, ← BitVec.extractLsb'_extractLsb'_of_le (start := 0) (len := 6) (len' := 8) (by decide)]
    exact Nat.and_two_pow_sub_one_eq_mod _ 6
  rw [bias, hexp, hbase, pow_mul]
  norm_num

/-! ### The physical getters (rules R165 to R170) -/

theorem readsThen_of_getPhysical {i : Instr} {result : Payload → Word16} {phys conv : Params → Payload → Rat}
    (f : Field) (hexec : ∀ s, exec i s = perform (fun t => t.getPhysical f conv) s)
    (hresult : ∀ p, (selectField p f.mask).setWidth 16 = result p)
    (hphys : ∀ cfg p, conv cfg (selectField p f.mask) = phys cfg p) :
    ReadsThen i f.primary fun p t => .ok ⟨some (result p), some (rnd t.cfg.physFmt (phys t.cfg p))⟩ t := by
  intro s
  simp only [hexec, State.getPhysical, State.readMasked_andThen, hresult, hphys]

/-- Every row of the spec's table describes its physical getter. -/
theorem PhysicalRow.readsThen {g : PhysicalRow} (h : g ∈ physicalRows) :
    ReadsThen g.instr g.addr fun p t =>
      .ok ⟨some (g.result p), some (rnd t.cfg.physFmt (g.phys t.cfg p))⟩ t := by
  simp only [physicalRows, List.mem_cons, List.not_mem_nil, or_false] at h
  rcases h with rfl | rfl | rfl | rfl | rfl | rfl
  · exact readsThen_of_getPhysical .fgain1 (fun _ => rfl) (Field.setWidth_selectField .fgain1)
      fun cfg p => congrArg (fgain cfg) (Field.toNat_selectField .fgain1 p)
  · exact readsThen_of_getPhysical .fgain2 (fun _ => rfl) (Field.setWidth_selectField .fgain2)
      fun cfg p => congrArg (fgain cfg) (Field.toNat_selectField .fgain2 p)
  · exact readsThen_of_getPhysical .offs1 (fun _ => rfl) (Field.setWidth_selectField .offs1)
      fun cfg p => offsOfCode_eq_offsetFraction cfg (Field.selectField_mask .offs1 p)
  · exact readsThen_of_getPhysical .offs2 (fun _ => rfl) (Field.setWidth_selectField .offs2)
      fun cfg p => offsOfCode_eq_offsetFraction cfg (Field.selectField_mask .offs2 p)
  · exact readsThen_of_getPhysical .bias (fun _ => rfl) (Field.setWidth_selectField .bias)
      fun cfg p => bias_eq cfg (Field.toNat_selectField .bias p)
  · exact readsThen_of_getPhysical .txfreq (fun _ => rfl) (fun p => congrArg _ (selectField_txfreq p))
      fun cfg p => congrArg (fun code => txf cfg code.toNat) (selectField_txfreq p)

/-! ### GETP_GAIN (rules R164 and R194) -/

/-- GETP_GAIN's pseudocode after its masked read returned `code`. -/
def answerGain (code : Payload) (t : State) : Res Response :=
  if h : code.toNat < 96 then
    .ok ⟨some (code.setWidth 16), some (rnd t.cfg.physFmt (gain t.cfg ⟨code.toNat, h⟩))⟩ t
  else .err (.inconsistent code) t

theorem getpGain_readsThen : ReadsThen .getpGain 0x02#7 fun p => answerGain (selectField p Field.gain.mask) :=
  fun s => congrArg (fun r : Res Response => Host.Outcome.next r.finish)
    (s.accept.readMasked_andThen Field.gain.primary Field.gain.mask answerGain)

theorem answerGain_of_lt {code : Payload} {n : Nat} (t : State) (hn : code.toNat = n) (h : n < 96) :
    answerGain code t =
      .ok ⟨some (BitVec.ofNat 16 n), some (rnd t.cfg.physFmt t.cfg.gainTable[n])⟩ t := by
  subst hn
  rw [answerGain, dif_pos h, BitVec.ofNat_toNat]
  rfl

theorem answerGain_of_gt {code : Payload} (t : State) (h : 95 < code.toNat) :
    answerGain code t = .err (.inconsistent code) t :=
  dif_neg (Nat.not_lt.2 h)

/-- The stored code is bits 11 to 5 of the frame: the low seven bits of its payload. -/
theorem toNat_selectField_gain (f : Frame) :
    (selectField (f.extractLsb' 5 11) Field.gain.mask).toNat = (f.extractLsb' 5 7).toNat := by
  have hbits : (f.extractLsb' 5 11).extractLsb' 0 7 = f.extractLsb' 5 7 := by
    rw [← BitVec.setWidth_eq_extractLsb' (by decide), BitVec.setWidth_extractLsb'_of_le (by decide)]
  exact (Field.toNat_selectField .gain _).trans (congrArg BitVec.toNat hbits)

/-! ### The statements of the family 43_field_getters.md on a bus that answers anything -/

/-- Settles O34: after its row is tied to its operation, a getter answers as any operation that begins with one read. -/
theorem rawGetterResult : Obligations.RawGetterResult := by
  intro s hpoly g hg
  have hi := GetterRow.readsThen hg
  refine ⟨fun c hc => hi.exec_of_fault hc, fun hf b0 b1 hb =>
    ⟨hi.exec_of_remainder_ne_zero hpoly hf hb, fun hr => ?_⟩⟩
  rw [hi.exec_of_remainder_eq_zero hpoly hf hb hr, Res.finish_ok, State.respond_received]

/-- Settles O35, as O34; the configuration that converts the code is the one the command found. -/
theorem physicalGetterResult : Obligations.PhysicalGetterResult := by
  refine ⟨fun s hpoly g hg => ?_, fun q => rfl⟩
  have hi := PhysicalRow.readsThen hg
  refine ⟨fun c hc => hi.exec_of_fault hc, fun hf b0 b1 hb =>
    ⟨hi.exec_of_remainder_ne_zero hpoly hf hb, fun hr => ?_⟩⟩
  rw [hi.exec_of_remainder_eq_zero hpoly hf hb hr, Res.finish_ok, State.respond_received, State.received_cfg,
    State.accept_cfg]

/-- Settles O36, by the stored code: the table has an entry for it, or the operation ends in error after its read. -/
theorem gainGetterResultOrInconsistent : Obligations.GainGetterResultOrInconsistent := by
  intro s hpoly
  have hi := getpGain_readsThen
  refine ⟨fun c hc => hi.exec_of_fault hc, fun hf b0 b1 hb =>
    ⟨hi.exec_of_remainder_ne_zero hpoly hf hb, fun hr code hcode => ?_⟩⟩
  have hsel := (toNat_selectField_gain (b0 ++ b1)).trans hcode.symm
  rw [hi.exec_of_remainder_eq_zero hpoly hf hb hr]
  refine ⟨fun h => ?_, fun h => ?_⟩
  · rw [answerGain_of_lt _ hsel h, Res.finish_ok, State.respond_received, State.received_cfg]
    rfl
  · rw [answerGain_of_gt _ (hsel.symm ▸ h), Res.finish_err, State.raiseError_received]
    rfl

end Sys2Proof.Machine
end

section
/-! The command port and the refusal of an illegal command (10_state.md rule R15, 60_exceptions.md rule R195): what the
host presents, what it does after an error, the state after a refusal, and the statement O54. -/

namespace Sys2Proof.Machine

theorem State.presented_of_cmds {s : State} {w : Command} {rest : List Command} (hstop : s.stopped = false)
    (hcmds : s.cmds = w :: rest) : s.presented = some w := by
  rw [State.presented, hstop, hcmds]
  rfl

/-- After any status but OK the host keeps its list and its place in it, and stops (rule R15). -/
theorem State.hostNext_of_status_ne {s : State} (h : s.status ≠ some 0#3) :
    s.hostNext = { s with stopped := true } :=
  if_neg h

theorem State.rejectIllegal_eq_outcome (s : State) :
    s.rejectIllegal = s.outcome s.bus s.regs [] 5#3 none none none :=
  s.raiseError_accept .illegal

theorem State.status_rejectIllegal_ne (s : State) : s.rejectIllegal.status ≠ some 0#3 := by
  rw [State.rejectIllegal, State.raiseError_status, Raise.status_illegal]
  decide

/-- The block's refusal of a presented word that does not decode, then the host's turn (30_encoding.md rule R60). -/
theorem step_of_decode_error {s : State} {w : Command} {e : DecodeError} (hbusy : s.busy = false)
    (hw : s.presented = some w) (hdec : decode w = .error e) : step s = .next s.rejectIllegal.hostNext := by
  simp [step, hbusy, hw, hdec]

/-- Settles O54: the refusal is the outcome of an error raised in the accepted state, and it stops the host. -/
theorem stepAnswersAnIllegalCommand : Obligations.StepAnswersAnIllegalCommand := by
  intro s w rest e hbusy hstop hcmds hdec
  have hw : s.presented = some w := State.presented_of_cmds hstop hcmds
  rw [step_of_decode_error hbusy hw hdec, State.hostNext_of_status_ne s.status_rejectIllegal_ne,
    State.rejectIllegal_eq_outcome]

end Sys2Proof.Machine
end

section
/-! Reset and the settling delay (70_reset_and_hazards.md rules R220, R224 and R225): what each piece of pseudocode adds
to the trace and whether a delay is among it, and the statements O33 and O50. -/

namespace Sys2Proof.Machine

/-! ### Pseudocode without a delay (rule R225) -/

/-- From `s` to `t` events were added to the trace, none of them a settling delay. -/
def State.AddsNoDelay (s t : State) : Prop := ∃ es, t.trace = s.trace ++ es ∧ Event.dly ∉ es

theorem State.AddsNoDelay.of_trace_eq {s t : State} (h : t.trace = s.trace) : s.AddsNoDelay t :=
  ⟨[], h.trans (List.append_nil _).symm, List.not_mem_nil⟩

theorem State.AddsNoDelay.of_trace_append {s t : State} {e : Event} (h : t.trace = s.trace ++ [e]) (he : .dly ≠ e) :
    s.AddsNoDelay t :=
  ⟨[e], h, mt List.mem_singleton.1 he⟩

theorem State.AddsNoDelay.trans {s t u : State} (h : s.AddsNoDelay t) (k : t.AddsNoDelay u) : s.AddsNoDelay u := by
  obtain ⟨es, hes, hd⟩ := h
  obtain ⟨fs, hfs, hd'⟩ := k
  exact ⟨es ++ fs, by rw [hfs, hes, List.append_assoc], by simp [hd, hd']⟩

theorem Res.addsNoDelay_andThen {α β : Type} {s : State} {r : Res α} {k : α → State → Res β}
    (hr : s.AddsNoDelay r.state) (hk : ∀ x (t : State), t.AddsNoDelay (k x t).state) :
    s.AddsNoDelay (r.andThen k).state := by
  cases r with
  | ok x t => exact hr.trans (hk x t)
  | err e t => exact hr

theorem State.addsNoDelay_readRegister (s : State) (a : Addr) : s.AddsNoDelay (s.readRegister a).state := by
  rcases s.readRegister_cases a with ⟨c, _, h⟩ | ⟨_, _, h⟩ | ⟨_, _, h⟩ <;> rw [h]
  all_goals exact .of_trace_append rfl nofun

theorem State.addsNoDelay_writeRegister (s : State) (a : Addr) (v : Payload) :
    s.AddsNoDelay (s.writeRegister a v).state := by
  rcases s.writeRegister_cases a v with ⟨c, _, h⟩ | ⟨_, h⟩ <;> rw [h]
  all_goals exact .of_trace_append rfl nofun

theorem State.addsNoDelay_readMasked (s : State) (a : Addr) (m : Payload) :
    s.AddsNoDelay (s.readMasked a m).state :=
  Res.addsNoDelay_andThen (s.addsNoDelay_readRegister a) fun _ _ => .of_trace_eq rfl

theorem State.addsNoDelay_writeMasked (s : State) (a : Addr) (v m : Payload) :
    s.AddsNoDelay (s.writeMasked a v m).state :=
  Res.addsNoDelay_andThen (s.addsNoDelay_readRegister a) fun p t => (t.setTmp p).addsNoDelay_writeRegister a _

theorem State.addsNoDelay_getField (s : State) (f : Field) (post : Payload → Payload) :
    s.AddsNoDelay (s.getField f post).state :=
  Res.addsNoDelay_andThen (s.addsNoDelay_readMasked ..) fun _ _ => .of_trace_eq rfl

theorem State.addsNoDelay_getPhysical (s : State) (f : Field) (conv : Params → Payload → Rat) :
    s.AddsNoDelay (s.getPhysical f conv).state :=
  Res.addsNoDelay_andThen (s.addsNoDelay_readMasked ..) fun _ _ => .of_trace_eq rfl

theorem addsNoDelay_answerGain (code : Payload) (t : State) : t.AddsNoDelay (answerGain code t).state := by
  unfold answerGain
  split <;> exact .of_trace_eq rfl

theorem Res.finish_trace (r : Res Response) : r.finish.trace = r.state.trace := by
  cases r with
  | ok x t => rfl
  | err e t => rfl

/-- Acceptance and response leave the trace alone: an operation delays only if its pseudocode does. -/
theorem addsNoDelay_of_perform {body : State → Res Response} {s t : State} (h : perform body s = .next t)
    (hb : s.accept.AddsNoDelay (body s.accept).state) : s.AddsNoDelay t := by
  obtain rfl := perform_next h
  obtain ⟨es, hes, hd⟩ := hb
  exact ⟨es, (body s.accept).finish_trace.trans hes, hd⟩

/-- Rule R225, over every operation that is no setter. -/
theorem addsNoDelay_of_not_setter {i : Instr} {s t : State}
    (hi : ∀ v sign, ∀ row ∈ setterRows v sign, i ≠ row.instr) (h : exec i s = .next t) : s.AddsNoDelay t := by
  unfold exec at h
  cases i with
  | rdreg a =>
    exact addsNoDelay_of_perform h
      (Res.addsNoDelay_andThen (State.addsNoDelay_readRegister ..) fun _ _ => .of_trace_eq rfl)
  | wrreg a v =>
    exact addsNoDelay_of_perform h
      (Res.addsNoDelay_andThen (State.addsNoDelay_writeRegister ..) fun _ _ => .of_trace_eq rfl)
  | rdmsk a m =>
    refine addsNoDelay_of_perform h ?_
    split
    · exact .of_trace_eq rfl
    · exact Res.addsNoDelay_andThen (State.addsNoDelay_readMasked ..) fun _ _ => .of_trace_eq rfl
  | wrmsk a v m =>
    exact addsNoDelay_of_perform h
      (Res.addsNoDelay_andThen (State.addsNoDelay_writeMasked ..) fun _ _ => .of_trace_eq rfl)
  | crc word poly fill =>
    refine addsNoDelay_of_perform h ?_
    split <;> exact .of_trace_eq rfl
  | setVdd v | setOutmode v | setAgc v | setGain v | setBoost v | setFgain1 v | setFgain2 v | setBias v
  | setSubaddr v => exact absurd (hi v 0#16) (by simp [setterRows])
  | setOffs1 sign v | setOffs2 sign v => exact absurd (hi v sign) (by simp [setterRows])
  | getVdd | getOutmode | getAgc | getGain | getBoost | getFgain1 | getFgain2 | getOffs1 | getOffs2 | getBias
  | getSubaddr | getTxfreq => exact addsNoDelay_of_perform h (State.addsNoDelay_getField ..)
  | getpGain =>
    exact addsNoDelay_of_perform h
      (Res.addsNoDelay_andThen (State.addsNoDelay_readMasked ..) addsNoDelay_answerGain)
  | getpFgain1 | getpFgain2 | getpOffs1 | getpOffs2 | getpBias | getpTxfreq =>
    exact addsNoDelay_of_perform h (State.addsNoDelay_getPhysical ..)

/-! ### The delays of a setter (rule R224) -/

/-- A completed write with its delay, as the paired write of rule R120 makes it, leaves the rest of the trace to be
looked at. -/
theorem delaysKept_settledWrite (a : Addr) (b0 b1 c0 c1 : Byte) (es : List Event) :
    delaysKept (.rd a b0 b1 :: .wr a c0 c1 :: .dly :: es) = delaysKept es := rfl

/-- What WRMSK's pseudocode adds to the trace: after an error no completed write is there to be followed by a delay,
and otherwise the completed write is the last event. -/
theorem State.writeMasked_trace (s : State) (a : Addr) (v m : Payload) :
    (∃ e t es, s.writeMasked a v m = .err e t ∧ t.trace = s.trace ++ es ∧ delaysKept es = true) ∨
    (∃ t b0 b1 c0 c1, s.writeMasked a v m = .ok () t ∧ t.trace = s.trace ++ [.rd a b0 b1, .wr a c0 c1]) := by
  rcases s.readRegister_cases a with ⟨c, _, hr⟩ | ⟨_, _, hr⟩ | ⟨_, _, hr⟩
  · exact .inl ⟨_, _, [_], State.writeMasked_of_err v m hr, rfl, rfl⟩
  · exact .inl ⟨_, _, [_], State.writeMasked_of_err v m hr, rfl, rfl⟩
  · rw [State.writeMasked_of_ok v m hr]
    rcases State.writeRegister_cases _ a _ with ⟨c, _, hw⟩ | ⟨_, hw⟩
    · exact .inl ⟨_, _, [_, _], hw, List.append_assoc .., rfl⟩
    · exact .inr ⟨_, _, _, _, _, hw, List.append_assoc ..⟩

/-- The trace of the paired write, by where it stops: in the shadow's WRMSK, in the primary's, or not at all. -/
theorem SetterRow.finishWrite_write_trace (row : SetterRow) (s : State) :
    ∃ es, (row.write s).finishWrite.trace = s.trace ++ es ∧ delaysKept es = true ∧
      ((row.write s).finishWrite.status = some 0#3 → es.count .dly = 2) := by
  rcases s.writeMasked_trace row.shadow row.val row.mask with
    ⟨e, t, es, hw, ht, hk⟩ | ⟨t, b0, b1, c0, c1, hw, ht⟩ <;> rw [SetterRow.write, hw]
  · exact ⟨es, ht, hk, fun hs => absurd hs (t.raiseError_status_ne_ok e)⟩
  rw [Res.andThen_ok]
  rcases t.delay.writeMasked_trace row.primary row.val row.mask with
    ⟨e, u, es, hw', hu, hk⟩ | ⟨u, d0, d1, e0, e1, hw', hu⟩ <;> rw [hw']
  · refine ⟨.rd row.shadow b0 b1 :: .wr row.shadow c0 c1 :: .dly :: es, ?_, (delaysKept_settledWrite ..).trans hk,
      fun hs => absurd hs (u.raiseError_status_ne_ok e)⟩
    simp [hu, ht]
  · refine ⟨[.rd row.shadow b0 b1, .wr row.shadow c0 c1, .dly, .rd row.primary d0 d1, .wr row.primary e0 e1, .dly],
      ?_, rfl, fun _ => rfl⟩
    simp [hu, ht]

/-! ### The statements of the family 70_reset_and_hazards.md -/

/-- Settles O33: a setter out of its domain adds no event, one in its domain the events of its paired write. -/
theorem onlySettersDelayAndTheyAlwaysDo : Obligations.OnlySettersDelayAndTheyAlwaysDo := by
  refine ⟨fun s t v sign row hrow h => ?_, fun s t i hi h => addsNoDelay_of_not_setter hi h⟩
  cases hl : row.legal with
  | false =>
    rw [exec_setter_of_illegal s hrow hl] at h
    obtain rfl := Host.Outcome.next.inj h
    exact ⟨[], rfl, rfl, fun hs => absurd hs (s.accept.raiseError_status_ne_ok .range)⟩
  | true =>
    rw [exec_setter_of_legal s hrow hl] at h
    obtain rfl := Host.Outcome.next.inj h
    exact row.finishWrite_write_trace s.accept

/-- Settles O50, field by field of the state after reset. -/
theorem resetLeavesTheBlockIdleAndSilent : Obligations.ResetLeavesTheBlockIdleAndSilent :=
  ⟨rfl, ⟨rfl, rfl, rfl, rfl⟩, rfl, rfl, rfl, rfl, rfl⟩

end Sys2Proof.Machine
end

section
/-! The command word (30_encoding.md rules R55 to R60): the operand fields of each format, encoding and decoding as
inverses of each other, the opcode table's match and mask columns, and the statements O25 and O57 to
O60. -/

namespace Sys2Proof

/-! ### The fields of a format (rules R55 to R58) -/

@[simp] theorem op_encodeR (o : BitVec 8) (a : Addr) (v m : Payload) : Command.op (encodeR o a v m) = o :=
  Laws.OpcodeByte.top _ _

@[simp] theorem addr_encodeR (o : BitVec 8) (a : Addr) (v m : Payload) : Command.addr (encodeR o a v m) = a := by
  rw [Command.addr, encodeR]
  iterate 2 rw [BitVec.extractLsb'_append_eq_of_add_le (by decide)]
  exact BitVec.extractLsb'_append_eq_left

@[simp] theorem value_encodeR (o : BitVec 8) (a : Addr) (v m : Payload) : Command.value (encodeR o a v m) = v := by
  rw [Command.value, encodeR]
  iterate 4 rw [BitVec.extractLsb'_append_eq_of_add_le (by decide)]
  exact BitVec.extractLsb'_append_eq_left

@[simp] theorem mask_encodeR (o : BitVec 8) (a : Addr) (v m : Payload) : Command.mask (encodeR o a v m) = m := by
  rw [Command.mask, encodeR]
  iterate 5 rw [BitVec.extractLsb'_append_eq_of_add_le (by decide)]
  exact BitVec.extractLsb'_append_eq_right

@[simp] theorem reservedClearR_encodeR (o : BitVec 8) (a : Addr) (v m : Payload) :
    Command.reservedClearR (encodeR o a v m) = true := by
  simp only [Command.reservedClearR, encodeR, Bool.and_eq_true, beq_iff_eq]
  refine ⟨⟨?_, ?_⟩, ?_⟩
  · rw [BitVec.extractLsb'_append_eq_of_add_le (by decide)]
    exact BitVec.extractLsb'_append_eq_left
  · iterate 3 rw [BitVec.extractLsb'_append_eq_of_add_le (by decide)]
    exact BitVec.extractLsb'_append_eq_left
  · iterate 5 rw [BitVec.extractLsb'_append_eq_of_add_le (by decide)]
    exact BitVec.extractLsb'_append_eq_left

@[simp] theorem op_encodeF (o : BitVec 8) (x y : Word16) : Command.op (encodeF o x y) = o :=
  Laws.OpcodeByte.top _ _

@[simp] theorem first_encodeF (o : BitVec 8) (x y : Word16) : Command.first (encodeF o x y) = x := by
  rw [Command.first, encodeF]
  iterate 2 rw [BitVec.extractLsb'_append_eq_of_add_le (by decide)]
  exact BitVec.extractLsb'_append_eq_left

@[simp] theorem second_encodeF (o : BitVec 8) (x y : Word16) : Command.second (encodeF o x y) = y := by
  rw [Command.second, encodeF]
  iterate 2 rw [BitVec.extractLsb'_append_eq_of_add_le (by decide)]
  exact BitVec.extractLsb'_append_eq_right

@[simp] theorem reservedClearF_encodeF (o : BitVec 8) (x y : Word16) :
    Command.reservedClearF (encodeF o x y) = true := by
  rw [Command.reservedClearF, encodeF, BitVec.extractLsb'_append_eq_of_add_le (by decide), beq_iff_eq]
  exact BitVec.extractLsb'_append_eq_left

@[simp] theorem op_encodeC (o p : BitVec 8) (x : BitVec 24) (f : BitVec 8) : Command.op (encodeC o p x f) = o :=
  Laws.OpcodeByte.top _ _

@[simp] theorem poly_encodeC (o p : BitVec 8) (x : BitVec 24) (f : BitVec 8) :
    Command.poly (encodeC o p x f) = p := by
  rw [Command.poly, encodeC, BitVec.extractLsb'_append_eq_of_add_le (by decide)]
  exact BitVec.extractLsb'_append_eq_left

@[simp] theorem word_encodeC (o p : BitVec 8) (x : BitVec 24) (f : BitVec 8) :
    Command.word (encodeC o p x f) = x := by
  rw [Command.word, encodeC]
  iterate 2 rw [BitVec.extractLsb'_append_eq_of_add_le (by decide)]
  exact BitVec.extractLsb'_append_eq_left

@[simp] theorem fill_encodeC (o p : BitVec 8) (x : BitVec 24) (f : BitVec 8) :
    Command.fill (encodeC o p x f) = f := by
  rw [Command.fill, encodeC]
  iterate 2 rw [BitVec.extractLsb'_append_eq_of_add_le (by decide)]
  exact BitVec.extractLsb'_append_eq_right

/-! ### A word put together again from its fields -/

/-- A word of format R whose reserved bits are zero is its own four fields (rule R56). -/
theorem encodeR_fields {w : Command} (h : w.reservedClearR = true) :
    encodeR w.op w.addr w.value w.mask = w := by
  simp only [Command.reservedClearR, Bool.and_eq_true, beq_iff_eq] at h
  obtain ⟨⟨h39, h27⟩, h11⟩ := h
  have hsplit : w.extractLsb' 40 8 ++ (w.extractLsb' 39 1 ++ (w.extractLsb' 32 7 ++ (w.extractLsb' 27 5 ++
      (w.extractLsb' 16 11 ++ (w.extractLsb' 11 5 ++ w.extractLsb' 0 11))))) = w := by
    iterate 6 rw [BitVec.extractLsb'_append_extractLsb'_eq_extractLsb' (by decide)]
    exact BitVec.extractLsb'_eq_self
  rwa [h39, h27, h11] at hsplit

/-- A word of format F whose reserved bits are zero is its own three fields (rule R57). -/
theorem encodeF_fields {w : Command} (h : w.reservedClearF = true) : encodeF w.op w.first w.second = w := by
  rw [Command.reservedClearF, beq_iff_eq] at h
  rw [encodeF, ← h, Command.op, Command.first, Command.second]
  iterate 3 rw [BitVec.extractLsb'_append_extractLsb'_eq_extractLsb' (by decide)]
  exact BitVec.extractLsb'_eq_self

/-- A word of format C is its own four fields (rule R58). -/
theorem encodeC_fields (w : Command) : encodeC w.op w.poly w.word w.fill = w := by
  rw [encodeC, Command.op, Command.poly, Command.word, Command.fill]
  iterate 3 rw [BitVec.extractLsb'_append_extractLsb'_eq_extractLsb' (by decide)]
  exact BitVec.extractLsb'_eq_self

/-! ### The decoder's templates (rules R57 and R60) -/

theorem needZero_eq_ok {zero : Bool} {i j : Instr} : needZero zero i = .ok j ↔ zero = true ∧ i = j := by
  cases zero <;> simp [needZero]

theorem op_eq_ofNat {w : Command} {n : Nat} (h : w.op.toNat = n) : w.op = BitVec.ofNat 8 n := by
  rw [← h, BitVec.ofNat_toNat, BitVec.setWidth_eq]

/-- A word the template of the one-operand setters accepts is the encoding of the setter it gives. -/
theorem encode_of_decodeSetter {w : Command} {n : Nat} {mk : Word16 → Instr} {i : Instr} (hop : w.op.toNat = n)
    (hmk : ∀ v, (mk v).wf = true ∧ encode (mk v) = encodeF (BitVec.ofNat 8 n) v 0#16)
    (h : decodeSetter w mk = .ok i) : i.wf = true ∧ encode i = w := by
  rw [decodeSetter, needZero_eq_ok, Bool.and_eq_true, beq_iff_eq] at h
  obtain ⟨⟨hclear, hsecond⟩, rfl⟩ := h
  obtain ⟨hwf, henc⟩ := hmk w.first
  exact ⟨hwf, by rw [henc, ← op_eq_ofNat hop, ← hsecond, encodeF_fields hclear]⟩

/-- A word the template of the offset setters accepts is the encoding of the setter it gives. -/
theorem encode_of_decodeOffset {w : Command} {n : Nat} {mk : Word16 → Word16 → Instr} {i : Instr}
    (hop : w.op.toNat = n)
    (hmk : ∀ sign mag, (mk sign mag).wf = true ∧ encode (mk sign mag) = encodeF (BitVec.ofNat 8 n) mag sign)
    (h : decodeOffset w mk = .ok i) : i.wf = true ∧ encode i = w := by
  rw [decodeOffset, needZero_eq_ok] at h
  obtain ⟨hclear, rfl⟩ := h
  obtain ⟨hwf, henc⟩ := hmk w.second w.first
  exact ⟨hwf, by rw [henc, ← op_eq_ofNat hop, encodeF_fields hclear]⟩

/-- A word the template of the getters accepts is the encoding of the getter it gives. -/
theorem encode_of_decodeGetter {w : Command} {n : Nat} {j i : Instr} (hop : w.op.toNat = n)
    (hj : j.wf = true ∧ encode j = encodeF (BitVec.ofNat 8 n) 0#16 0#16) (h : decodeGetter w j = .ok i) :
    i.wf = true ∧ encode i = w := by
  simp only [decodeGetter, needZero_eq_ok, Bool.and_eq_true, beq_iff_eq] at h
  obtain ⟨⟨⟨hclear, hfirst⟩, hsecond⟩, rfl⟩ := h
  obtain ⟨hwf, henc⟩ := hj
  refine ⟨hwf, ?_⟩
  nth_rw 1 [henc, ← op_eq_ofNat hop, ← hfirst]
  rw [← hsecond, encodeF_fields hclear]

/-! ### Encoding and decoding are inverses -/

/-- Settles O57, by format: the decoder finds in an encoded word the opcode and the operands put in. -/
theorem decodeOfEncodeIsTheOperation : Obligations.DecodeOfEncodeIsTheOperation := by
  intro i hwf
  cases i with
  | rdreg a | wrreg a v | wrmsk a v m => simp [encode, decode, needZero]
  | rdmsk a m =>
    have hm : m ≠ 0#11 := by simpa [Instr.wf] using hwf
    simp [encode, decode, hm]
  | crc word poly fill =>
    have hp : poly ≠ 0#8 := by simpa [Instr.wf] using hwf
    simp [encode, decode, hp]
  | setVdd v | setOutmode v | setAgc v | setGain v | setBoost v | setFgain1 v | setFgain2 v | setBias v
  | setSubaddr v => simp [encode, decode, decodeSetter, needZero]
  | setOffs1 sign mag | setOffs2 sign mag => simp [encode, decode, decodeOffset, needZero]
  | getVdd | getOutmode | getAgc | getGain | getBoost | getFgain1 | getFgain2 | getOffs1 | getOffs2 | getBias
  | getSubaddr | getTxfreq | getpGain | getpFgain1 | getpFgain2 | getpOffs1 | getpOffs2 | getpBias | getpTxfreq =>
    simp [encode, decode, decodeGetter, needZero]

/-- Settles O58, by the opcode: with the reserved bits zero the word is made of the fields the decoder read. -/
theorem everyLegalWordIsTheEncodingOfItsOperation : Obligations.EveryLegalWordIsTheEncodingOfItsOperation := by
  intro w i h
  unfold decode at h
  split at h
  case h_1 hop =>
    simp only [needZero_eq_ok, Bool.and_eq_true, beq_iff_eq] at h
    obtain ⟨⟨⟨hclear, hv⟩, hm⟩, rfl⟩ := h
    refine ⟨rfl, Eq.trans ?_ (encodeR_fields hclear)⟩
    rw [hv, hm, op_eq_ofNat hop, encode]
  case h_2 hop =>
    simp only [needZero_eq_ok, Bool.and_eq_true, beq_iff_eq] at h
    obtain ⟨⟨hclear, hm⟩, rfl⟩ := h
    refine ⟨rfl, Eq.trans ?_ (encodeR_fields hclear)⟩
    rw [hm, op_eq_ofNat hop, encode]
  case h_3 hop =>
    split at h
    next hz =>
      rw [Bool.and_eq_true, beq_iff_eq] at hz
      obtain ⟨hclear, hv⟩ := hz
      split at h
      next => cases h
      next hm =>
        obtain rfl := Except.ok.inj h
        refine ⟨by simpa [Instr.wf] using hm, Eq.trans ?_ (encodeR_fields hclear)⟩
        rw [hv, op_eq_ofNat hop, encode]
    next => cases h
  case h_4 hop =>
    obtain ⟨hclear, rfl⟩ := needZero_eq_ok.1 h
    refine ⟨rfl, Eq.trans ?_ (encodeR_fields hclear)⟩
    rw [op_eq_ofNat hop, encode]
  case h_5 hop =>
    split at h
    next => cases h
    next hp =>
      obtain rfl := Except.ok.inj h
      refine ⟨by simpa [Instr.wf] using hp, Eq.trans ?_ (encodeC_fields w)⟩
      rw [op_eq_ofNat hop, encode]
  case h_6 hop | h_7 hop | h_8 hop | h_9 hop | h_10 hop | h_11 hop | h_12 hop | h_15 hop | h_16 hop =>
    exact encode_of_decodeSetter hop (fun _ => ⟨rfl, rfl⟩) h
  case h_13 hop | h_14 hop =>
    exact encode_of_decodeOffset hop (fun _ _ => ⟨rfl, rfl⟩) h
  case h_36 => cases h
  all_goals
    next hop => exact encode_of_decodeGetter hop ⟨rfl, rfl⟩ h

/-! ### The opcode byte (rules R55 and R59) -/

theorem op_encode (i : Instr) : (encode i).extractLsb' 40 8 = i.opcode := by
  cases i <;> exact Laws.OpcodeByte.top _ _

/-- Settles O25: a decoded word is the encoding of its operation, so its top byte is that of the encoding. -/
theorem fieldMapAgreesWithItsTable : Obligations.FieldMapAgreesWithItsTable := by
  refine ⟨by decide, fun v sign k row h => ?_, fun k g h => ?_, by decide, op_encode, fun w i h => ?_⟩
  · obtain ⟨hk, rfl⟩ := List.getElem?_eq_some_iff.1 h
    rw [op_encode]
    change k < 11 at hk
    interval_cases k <;> rfl
  · obtain ⟨hk, rfl⟩ := List.getElem?_eq_some_iff.1 h
    rw [op_encode]
    change k < 12 at hk
    interval_cases k <;> rfl
  · obtain ⟨-, rfl⟩ := everyLegalWordIsTheEncodingOfItsOperation w i h
    exact op_encode i

/-! ### The match and mask columns of the opcode table (rule R60) -/

theorem encodeR_and (o mo : BitVec 8) (mz : BitVec 1) (a ma : Addr) (my mx : BitVec 5) (v mv m mm : Payload) :
    encodeR o a v m &&& (mo ++ (mz ++ (ma ++ (my ++ (mv ++ (mx ++ mm)))))) =
      encodeR (o &&& mo) (a &&& ma) (v &&& mv) (m &&& mm) := by
  rw [encodeR]
  iterate 6 rw [BitVec.and_append]
  rw [BitVec.zero_and, BitVec.zero_and, BitVec.zero_and, encodeR]

theorem encodeF_and (o mo mz : BitVec 8) (x mx y my : Word16) :
    encodeF o x y &&& (mo ++ (mz ++ (mx ++ my))) = encodeF (o &&& mo) (x &&& mx) (y &&& my) := by
  rw [encodeF]
  iterate 3 rw [BitVec.and_append]
  rw [BitVec.zero_and, encodeF]

theorem encodeC_and (o mo p mp : BitVec 8) (x mx : BitVec 24) (f mf : BitVec 8) :
    encodeC o p x f &&& (mo ++ (mp ++ (mx ++ mf))) = encodeC (o &&& mo) (p &&& mp) (x &&& mx) (f &&& mf) := by
  rw [encodeC]
  iterate 3 rw [BitVec.and_append]
  rw [encodeC]

theorem encodeF_and_setterMask (o : BitVec 8) (x : Word16) :
    encodeF o x 0#16 &&& 0xFFFF0000FFFF#48 = encodeF o 0#16 0#16 := by
  refine (encodeF_and o 0xFF#8 0xFF#8 x 0#16 0#16 0xFFFF#16).trans ?_
  rw [BitVec.and_zero, BitVec.zero_and, show o &&& 0xFF#8 = o from BitVec.and_allOnes]

theorem encodeF_and_offsetMask (o : BitVec 8) (x y : Word16) :
    encodeF o x y &&& 0xFFFF00000000#48 = encodeF o 0#16 0#16 := by
  refine (encodeF_and o 0xFF#8 0xFF#8 x 0#16 y 0#16).trans ?_
  rw [BitVec.and_zero, BitVec.and_zero, show o &&& 0xFF#8 = o from BitVec.and_allOnes]

/-- The encoding of every operation matches a row of the opcode table. -/
theorem exists_row_of_encode (i : Instr) : ∃ row ∈ Machine.opcodeRows, encode i &&& row.2 = row.1 := by
  cases i with
  | rdreg a =>
    refine ⟨(encodeR 0x01#8 0#7 0#11 0#11, 0xFF80FFFFFFFF#48), by decide, ?_⟩
    refine (encodeR_and 0x01#8 0xFF#8 1#1 a 0#7 0x1F#5 0x1F#5 0#11 0x7FF#11 0#11 0x7FF#11).trans ?_
    rw [BitVec.and_zero]
    rfl
  | wrreg a v =>
    refine ⟨(encodeR 0x02#8 0#7 0#11 0#11, 0xFF80F800FFFF#48), by decide, ?_⟩
    refine (encodeR_and 0x02#8 0xFF#8 1#1 a 0#7 0x1F#5 0x1F#5 v 0#11 0#11 0x7FF#11).trans ?_
    rw [BitVec.and_zero, BitVec.and_zero]
    rfl
  | rdmsk a m =>
    refine ⟨(encodeR 0x03#8 0#7 0#11 0#11, 0xFF80FFFFF800#48), by decide, ?_⟩
    refine (encodeR_and 0x03#8 0xFF#8 1#1 a 0#7 0x1F#5 0x1F#5 0#11 0x7FF#11 m 0#11).trans ?_
    rw [BitVec.and_zero, BitVec.and_zero]
    rfl
  | wrmsk a v m =>
    refine ⟨(encodeR 0x04#8 0#7 0#11 0#11, 0xFF80F800F800#48), by decide, ?_⟩
    refine (encodeR_and 0x04#8 0xFF#8 1#1 a 0#7 0x1F#5 0x1F#5 v 0#11 m 0#11).trans ?_
    rw [BitVec.and_zero, BitVec.and_zero, BitVec.and_zero]
    rfl
  | crc word poly fill =>
    refine ⟨(encodeC 0x08#8 0#8 0#24 0#8, 0xFF0000000000#48), by decide, ?_⟩
    refine (encodeC_and 0x08#8 0xFF#8 poly 0#8 word 0#24 fill 0#8).trans ?_
    rw [BitVec.and_zero, BitVec.and_zero, BitVec.and_zero]
    rfl
  | setVdd v | setOutmode v | setAgc v | setGain v | setBoost v | setFgain1 v | setFgain2 v | setBias v
  | setSubaddr v => exact ⟨(_, 0xFFFF0000FFFF#48), by decide, encodeF_and_setterMask _ v⟩
  | setOffs1 sign mag | setOffs2 sign mag =>
    exact ⟨(_, 0xFFFF00000000#48), by decide, encodeF_and_offsetMask _ mag sign⟩
  | getVdd | getOutmode | getAgc | getGain | getBoost | getFgain1 | getFgain2 | getOffs1 | getOffs2 | getBias
  | getSubaddr | getTxfreq | getpGain | getpFgain1 | getpFgain2 | getpOffs1 | getpOffs2 | getpBias | getpTxfreq =>
    exact ⟨(_, 0xFFFFFFFFFFFF#48), by decide, BitVec.and_allOnes⟩

/-! Conversely, a word that matches a row is assembled from operands: where the row's mask is a run of ones the word
has the bits of the row's match. -/

theorem extractLsb'_of_and_eq {w mask m : Command} {start len : Nat} (h : w &&& mask = m)
    (hmask : mask.extractLsb' start len = BitVec.allOnes len) : w.extractLsb' start len = m.extractLsb' start len := by
  rw [← h, BitVec.extractLsb'_and, hmask, BitVec.and_allOnes]

theorem encodeR_fields_of_row {w mask : Command} {o : BitVec 8} (h : w &&& mask = encodeR o 0#7 0#11 0#11)
    (hmask : mask &&& 0xFF80F800F800#48 = 0xFF80F800F800#48) : encodeR o w.addr w.value w.mask = w := by
  have hrow : w &&& 0xFF80F800F800#48 = encodeR o 0#7 0#11 0#11 := by
    rw [← hmask, ← BitVec.and_assoc, h]
    refine (encodeR_and o 0xFF#8 1#1 0#7 0#7 0x1F#5 0x1F#5 0#11 0#11 0#11 0#11).trans ?_
    rw [BitVec.and_zero, BitVec.and_zero, show o &&& 0xFF#8 = o from BitVec.and_allOnes]
  have hclear := reservedClearR_encodeR o 0#7 0#11 0#11
  simp only [Command.reservedClearR, Bool.and_eq_true, beq_iff_eq] at hclear
  obtain ⟨⟨h39, h27⟩, h11⟩ := hclear
  have hop : w.op = o := (extractLsb'_of_and_eq hrow (by decide)).trans (op_encodeR o 0#7 0#11 0#11)
  rw [← hop]
  refine encodeR_fields ?_
  simp only [Command.reservedClearR, Bool.and_eq_true, beq_iff_eq]
  exact ⟨⟨(extractLsb'_of_and_eq hrow (by decide)).trans h39, (extractLsb'_of_and_eq hrow (by decide)).trans h27⟩,
    (extractLsb'_of_and_eq hrow (by decide)).trans h11⟩

theorem encodeF_fields_of_row {w mask : Command} {o : BitVec 8} (h : w &&& mask = encodeF o 0#16 0#16)
    (hmask : mask &&& 0xFFFF00000000#48 = 0xFFFF00000000#48) : encodeF o w.first w.second = w := by
  have hrow : w &&& 0xFFFF00000000#48 = encodeF o 0#16 0#16 := by
    rw [← hmask, ← BitVec.and_assoc, h, encodeF_and_offsetMask]
  have hop : w.op = o := (extractLsb'_of_and_eq hrow (by decide)).trans (op_encodeF o 0#16 0#16)
  have hclear : w.reservedClearF = true := beq_iff_eq.2
    ((extractLsb'_of_and_eq hrow (by decide)).trans (beq_iff_eq.1 (reservedClearF_encodeF o 0#16 0#16)))
  rw [← hop, encodeF_fields hclear]

theorem legal_of_encode {w : Command} {i : Instr} (hwf : i.wf = true) (h : encode i = w) : ∃ i, decode w = .ok i :=
  ⟨i, h ▸ decodeOfEncodeIsTheOperation i hwf⟩

theorem legal_of_setterRow {w : Command} {o : BitVec 8} {mk : Word16 → Instr}
    (hmk : ∀ v, (mk v).wf = true ∧ encode (mk v) = encodeF o v 0#16)
    (h : w &&& 0xFFFF0000FFFF#48 = encodeF o 0#16 0#16) : ∃ i, decode w = .ok i := by
  have hsecond : w.second = 0#16 := (extractLsb'_of_and_eq h (by decide)).trans (second_encodeF o 0#16 0#16)
  obtain ⟨hwf, henc⟩ := hmk w.first
  exact legal_of_encode hwf (by rw [henc, ← hsecond, encodeF_fields_of_row h (by decide)])

theorem legal_of_offsetRow {w : Command} {o : BitVec 8} {mk : Word16 → Word16 → Instr}
    (hmk : ∀ sign mag, (mk sign mag).wf = true ∧ encode (mk sign mag) = encodeF o mag sign)
    (h : w &&& 0xFFFF00000000#48 = encodeF o 0#16 0#16) : ∃ i, decode w = .ok i := by
  obtain ⟨hwf, henc⟩ := hmk w.second w.first
  exact legal_of_encode hwf (by rw [henc, encodeF_fields_of_row h (by decide)])

theorem legal_of_getterRow {w : Command} {i : Instr} (hwf : i.wf = true) (h : w &&& 0xFFFFFFFFFFFF#48 = encode i) :
    ∃ i, decode w = .ok i :=
  legal_of_encode hwf (h.symm.trans BitVec.and_allOnes)

/-- A word that matches a row of the opcode table decodes, but for the two value conditions (rule R60). -/
theorem legal_of_row {w : Command} (hmask : w.op = 0x03#8 → w.mask ≠ 0#11) (hpoly : w.op = 0x08#8 → w.poly ≠ 0#8) :
    ∀ row ∈ Machine.opcodeRows, w &&& row.2 = row.1 → ∃ i, decode w = .ok i := by
  simp only [Machine.opcodeRows, List.forall_mem_cons]
  refine ⟨fun h => ?rdreg, fun h => ?wrreg, fun h => ?rdmsk, fun h => ?wrmsk, fun h => ?crc,
    legal_of_setterRow (mk := .setVdd) fun _ => ⟨rfl, rfl⟩,
    legal_of_setterRow (mk := .setOutmode) fun _ => ⟨rfl, rfl⟩,
    legal_of_setterRow (mk := .setAgc) fun _ => ⟨rfl, rfl⟩,
    legal_of_setterRow (mk := .setGain) fun _ => ⟨rfl, rfl⟩,
    legal_of_setterRow (mk := .setBoost) fun _ => ⟨rfl, rfl⟩,
    legal_of_setterRow (mk := .setFgain1) fun _ => ⟨rfl, rfl⟩,
    legal_of_setterRow (mk := .setFgain2) fun _ => ⟨rfl, rfl⟩,
    legal_of_offsetRow (mk := .setOffs1) fun _ _ => ⟨rfl, rfl⟩,
    legal_of_offsetRow (mk := .setOffs2) fun _ _ => ⟨rfl, rfl⟩,
    legal_of_setterRow (mk := .setBias) fun _ => ⟨rfl, rfl⟩,
    legal_of_setterRow (mk := .setSubaddr) fun _ => ⟨rfl, rfl⟩,
    legal_of_getterRow (i := .getVdd) rfl, legal_of_getterRow (i := .getOutmode) rfl,
    legal_of_getterRow (i := .getAgc) rfl, legal_of_getterRow (i := .getGain) rfl,
    legal_of_getterRow (i := .getBoost) rfl, legal_of_getterRow (i := .getFgain1) rfl,
    legal_of_getterRow (i := .getFgain2) rfl, legal_of_getterRow (i := .getOffs1) rfl,
    legal_of_getterRow (i := .getOffs2) rfl, legal_of_getterRow (i := .getBias) rfl,
    legal_of_getterRow (i := .getSubaddr) rfl, legal_of_getterRow (i := .getTxfreq) rfl,
    legal_of_getterRow (i := .getpGain) rfl, legal_of_getterRow (i := .getpFgain1) rfl,
    legal_of_getterRow (i := .getpFgain2) rfl, legal_of_getterRow (i := .getpOffs1) rfl,
    legal_of_getterRow (i := .getpOffs2) rfl, legal_of_getterRow (i := .getpBias) rfl,
    legal_of_getterRow (i := .getpTxfreq) rfl, nofun⟩
  case rdreg =>
    have hvalue : w.value = 0#11 := extractLsb'_of_and_eq h (by decide)
    have hm : w.mask = 0#11 := extractLsb'_of_and_eq h (by decide)
    refine legal_of_encode (i := .rdreg w.addr) rfl (Eq.trans ?_ (encodeR_fields_of_row (o := 0x01#8) h (by decide)))
    rw [hvalue, hm, encode]
  case wrreg =>
    have hm : w.mask = 0#11 := extractLsb'_of_and_eq h (by decide)
    refine legal_of_encode (i := .wrreg w.addr w.value) rfl
      (Eq.trans ?_ (encodeR_fields_of_row (o := 0x02#8) h (by decide)))
    rw [hm, encode]
  case rdmsk =>
    have hvalue : w.value = 0#11 := extractLsb'_of_and_eq h (by decide)
    have hop : w.op = 0x03#8 := extractLsb'_of_and_eq h (by decide)
    refine legal_of_encode (i := .rdmsk w.addr w.mask) (bne_iff_ne.2 (hmask hop))
      (Eq.trans ?_ (encodeR_fields_of_row (o := 0x03#8) h (by decide)))
    rw [hvalue, encode]
  case wrmsk =>
    exact legal_of_encode (i := .wrmsk w.addr w.value w.mask) rfl (encodeR_fields_of_row (o := 0x04#8) h (by decide))
  case crc =>
    have hop : w.op = 0x08#8 := extractLsb'_of_and_eq h (by decide)
    refine legal_of_encode (i := .crc w.word w.poly w.fill) (bne_iff_ne.2 (hpoly hop))
      (Eq.trans ?_ (encodeC_fields w))
    rw [hop, encode]

theorem decode_ne_ok_of_zeroMask {w : Command} (i : Instr) (hop : w.op = 0x03#8) (hm : w.mask = 0#11) :
    decode w ≠ .ok i := by
  simp only [decode, hop, BitVec.toNat_ofNat, Nat.reducePow, Nat.reduceMod, Bool.and_eq_true, beq_iff_eq, hm,
    if_true]
  split <;> nofun

theorem decode_ne_ok_of_zeroPoly {w : Command} (i : Instr) (hop : w.op = 0x08#8) (hp : w.poly = 0#8) :
    decode w ≠ .ok i := by
  simp [decode, hop, hp]

/-- Settles O59: forwards a legal word is the encoding of its operation (O58), and backwards a word that matches a row
is assembled from operands, and so decodes (O57). -/
theorem legalWordsAreThoseOfTheOpcodeTable : Obligations.LegalWordsAreThoseOfTheOpcodeTable := by
  intro w
  refine ⟨fun ⟨i, h⟩ => ⟨?_, fun ⟨hop, hm⟩ => decode_ne_ok_of_zeroMask i hop hm h,
    fun ⟨hop, hp⟩ => decode_ne_ok_of_zeroPoly i hop hp h⟩, fun ⟨⟨row, hrow, h⟩, hmask, hpoly⟩ =>
    legal_of_row (fun hop hm => hmask ⟨hop, hm⟩) (fun hop hp => hpoly ⟨hop, hp⟩) row hrow h⟩
  obtain ⟨-, rfl⟩ := everyLegalWordIsTheEncodingOfItsOperation w i h
  exact exists_row_of_encode i

/-- Settles O60, each word by running the decoder on it. -/
theorem sampleCommandWordsDecode : Obligations.SampleCommandWordsDecode := by
  unfold Obligations.SampleCommandWordsDecode
  decide

end Sys2Proof
end

section
/-! Every operation (10_state.md rules R10 to R21, 60_exceptions.md rules R198 to R201): what the pseudocode of an
operation can be, said once (`exec_meaning`), and what follows for all 35 by its five forms. Statements O24, O42 to
O47 and O52. -/

namespace Sys2Proof.Machine

/-! ### The forms of an operation's pseudocode -/

/-- A quantity converted from the configuration, whatever the bus address and the length of the delay are. -/
def IgnoresTiming (q : Params → Rat) : Prop :=
  ∀ (cfg : Params) (d : BitVec 7) (ms : Rat), q { cfg with devAddr := d, delayMs := ms } = q cfg

/-- Pseudocode that only presents a response or raises an error of its own (not the transport's). -/
inductive Answers : (State → Res Response) → Prop
  | result (v : Word16) : Answers fun s => .ok ⟨some v, none⟩ s
  | physical (v : Word16) {q : Params → Rat} (hq : IgnoresTiming q) : Answers fun s => .ok ⟨some v, some (q s.cfg)⟩ s
  | error (e : Raise) (he : e.cause = none) : Answers fun s => .err e s

/-- The forms of the 35 operations' pseudocode, with the registers it can store to. -/
inductive Meaning : List Addr → (State → Res Response) → Prop
  | answer (A : List Addr) {k : State → Res Response} (hk : Answers k) : Meaning A k
  | read (a : Addr) {k : Payload → State → Res Response} (hk : ∀ p, Answers (k p)) :
      Meaning [] fun s => (s.readRegister a).andThen k
  | write (a : Addr) (v : Payload) : Meaning [a] fun s => (s.writeRegister a v).andThen fun _ t => .ok .silent t
  | maskedWrite (a : Addr) (v m : Payload) :
      Meaning [a] fun s => (s.writeMasked a v m).andThen fun _ t => .ok .silent t
  | pairedWrite (f : Field) (fv : Payload) :
      Meaning [f.shadow, f.primary] fun s => (s.writePaired f fv).andThen fun _ t => .ok .silent t

theorem meaning_of_setField {i : Instr} {f : Field} {legal : Bool} {fv : Payload}
    (hexec : ∀ s, exec i s = perform (fun t => t.setField f legal fv) s) (hstores : stores i = [f.shadow, f.primary]) :
    ∃ body, Meaning (stores i) body ∧ ∀ s, exec i s = perform body s := by
  refine ⟨_, ?_, hexec⟩
  rw [hstores]
  cases legal with
  | false => exact .answer _ (.error .range rfl)
  | true => exact .pairedWrite f fv

theorem Meaning.readMasked (a : Addr) (m : Payload) {k : Payload → State → Res Response} (hk : ∀ p, Answers (k p)) :
    Meaning [] fun s => (s.readMasked a m).andThen k := by
  simp only [State.readMasked_andThen]
  exact .read a fun p => hk (selectField p m)

theorem Meaning.getField (f : Field) (post : Payload → Payload) : Meaning [] fun s => s.getField f post :=
  .readMasked _ _ fun _ => .result _

theorem Meaning.getPhysical (f : Field) {conv : Params → Payload → Rat} (h : ∀ code, IgnoresTiming (conv · code)) :
    Meaning [] fun s => s.getPhysical f conv :=
  .readMasked _ _ fun code => .physical _ (q := fun cfg => rnd cfg.physFmt (conv cfg code)) fun cfg d ms =>
    congrArg (rnd cfg.physFmt) (h code cfg d ms)

theorem answers_answerGain (code : Payload) : Answers (answerGain code) := by
  unfold answerGain
  by_cases h : code.toNat < 96
  · simp only [h, dif_pos]
    exact .physical _ (q := fun cfg => rnd cfg.physFmt (gain cfg ⟨code.toNat, h⟩)) fun _ _ _ => rfl
  · simp only [h, dif_neg, not_false_eq_true]
    exact .error _ rfl

/-- What an operation can do: its pseudocode is of one of the five forms, and stores where `stores` says. -/
theorem exec_meaning (i : Instr) : ∃ body, Meaning (stores i) body ∧ ∀ s, exec i s = perform body s := by
  cases i with
  | rdreg a => exact ⟨_, .read a fun _ => .result _, fun _ => rfl⟩
  | wrreg a v => exact ⟨_, .write a v, fun _ => rfl⟩
  | rdmsk a m =>
    by_cases hm : m = 0#11
    · exact ⟨_, .answer _ (.error .illegal rfl), fun s => congrArg _ (congrArg Res.finish (if_pos hm))⟩
    · exact ⟨_, .readMasked a m fun code => .result (code.setWidth 16),
        fun s => congrArg _ (congrArg Res.finish (if_neg hm))⟩
  | wrmsk a v m => exact ⟨_, .maskedWrite a v m, fun _ => rfl⟩
  | crc word poly fill =>
    by_cases hp : poly = 0#8
    · exact ⟨_, .answer _ (.error .illegal rfl), fun s => congrArg _ (congrArg Res.finish (if_pos hp))⟩
    · exact ⟨_, .answer _ (.result ((crcDiv 24 8 8 word poly fill).setWidth 16)),
        fun s => congrArg _ (congrArg Res.finish (if_neg hp))⟩
  | setVdd v | setOutmode v | setAgc v | setGain v | setBoost v | setFgain1 v | setFgain2 v | setOffs1 sign v
  | setOffs2 sign v | setBias v | setSubaddr v => exact meaning_of_setField (fun _ => rfl) rfl
  | getVdd | getOutmode | getAgc | getGain | getBoost | getFgain1 | getFgain2 | getOffs1 | getOffs2 | getBias
  | getSubaddr | getTxfreq => exact ⟨_, .getField _ _, fun _ => rfl⟩
  | getpGain => exact ⟨_, .readMasked _ _ answers_answerGain, fun _ => rfl⟩
  | getpFgain1 | getpFgain2 | getpOffs1 | getpOffs2 | getpBias | getpTxfreq =>
    exact ⟨_, .getPhysical _ fun _ _ _ _ => rfl, fun _ => rfl⟩

/-- Every operation answers a next state: the end of its pseudocode from the accepted command. -/
theorem exec_next (i : Instr) : ∃ body, Meaning (stores i) body ∧ ∀ s, exec i s = .next (body s.accept).finish :=
  exec_meaning i

/-! ### What every operation keeps (10_state.md rule R11) -/

theorem Answers.state_eq {k : State → Res Response} (hk : Answers k) (s : State) : (k s).state = s := by
  cases hk <;> rfl

theorem Meaning.keeps {A : List Addr} {body : State → Res Response} (h : Meaning A body) (s : State) :
    s.Keeps (body s).state := by
  cases h with
  | answer A hk => rw [hk.state_eq]; exact .refl s
  | read a hk => exact Res.keeps_andThen (s.keeps_readRegister a) fun p t => by rw [(hk p).state_eq]; exact .refl t
  | write a v => exact Res.keeps_andThen (s.keeps_writeRegister a v) fun _ t => .refl t
  | maskedWrite a v m => exact Res.keeps_andThen (s.keeps_writeMasked a v m) fun _ t => .refl t
  | pairedWrite f fv => exact Res.keeps_andThen (s.keeps_writePaired f fv) fun _ t => .refl t

theorem exec_keeps {i : Instr} {s t : State} (h : exec i s = .next t) : s.Keeps t := by
  obtain ⟨body, hbody, hexec⟩ := exec_meaning i
  exact perform_keeps ((hexec s).symm.trans h) (hbody.keeps s.accept)

/-- Settles O47: no form of pseudocode touches the configuration or the host's side. -/
theorem configurationIsNeverWritten : Obligations.ConfigurationIsNeverWritten := fun _ _ _ h =>
  have hk := exec_keeps h
  ⟨hk.cfg, hk.cmds, hk.cmdIdx, hk.stopped, hk.busRest⟩

/-! ### The response (30_encoding.md rule R62, 60_exceptions.md rules R198 and R199) -/

theorem Res.andThen_eq_ok {α β : Type} {r : Res α} {k : α → State → Res β} {y : β} {u : State}
    (h : r.andThen k = .ok y u) : ∃ x t, r = .ok x t ∧ k x t = .ok y u := by
  cases r with
  | ok x t => exact ⟨x, t, rfl, h⟩
  | err e t => cases h

/-- A response with a physical value has a result too. -/
def Response.Legal (r : Response) : Prop := r.phys.isSome → r.result.isSome

theorem Answers.legal {k : State → Res Response} (hk : Answers k) {s t : State} {r : Response} (h : k s = .ok r t) :
    r.Legal := by
  cases hk with
  | result v => cases h; exact fun _ => rfl
  | physical v hq => cases h; exact fun _ => rfl
  | error e he => cases h

theorem Meaning.legal {A : List Addr} {body : State → Res Response} (hbody : Meaning A body) {s t : State}
    {r : Response} (h : body s = .ok r t) : r.Legal := by
  cases hbody with
  | answer A hk => exact hk.legal h
  | read a hk =>
    obtain ⟨p, u, -, h⟩ := Res.andThen_eq_ok h
    exact (hk p).legal h
  | write | maskedWrite | pairedWrite =>
    obtain ⟨_, u, -, h⟩ := Res.andThen_eq_ok h
    cases h
    exact id

theorem State.respond_responseOk (s : State) {r : Response} (h : r.Legal) : (s.respond r).ResponseOk :=
  ⟨fun c hc => Option.some.inj hc ▸ by decide, fun _ => rfl, h, by simp⟩

theorem State.raiseError_responseOk (s : State) (e : Raise) : (s.raiseError e).ResponseOk := by
  cases e <;> simp [State.ResponseOk]

theorem Res.finish_idle (r : Res Response) : r.finish.Idle := by
  cases r <;> exact ⟨rfl, rfl, rfl, rfl⟩

theorem exec_responseOk {i : Instr} {s t : State} (h : exec i s = .next t) : t.Idle ∧ t.ResponseOk := by
  obtain ⟨body, hbody, hexec⟩ := exec_next i
  obtain rfl := Host.Outcome.next.inj ((hexec s).symm.trans h)
  refine ⟨Res.finish_idle _, ?_⟩
  cases hr : body s.accept with
  | ok r u => exact u.respond_responseOk (hbody.legal hr)
  | err e u => exact u.raiseError_responseOk e

theorem Res.exists_finish_status (r : Res Response) : ∃ c, r.finish.status = some c := by
  cases r <;> exact ⟨_, rfl⟩

/-- Settles O42: the end of the pseudocode writes STATUS, and idles the block, either way. -/
theorem everyOperationEndsIdleWithAStatus : Obligations.EveryOperationEndsIdleWithAStatus := by
  intro i s
  obtain ⟨body, -, hexec⟩ := exec_next i
  obtain ⟨c, hc⟩ := (body s.accept).exists_finish_status
  obtain ⟨hidle, hresponse⟩ := exec_responseOk (hexec s)
  exact ⟨_, c, hexec s, hc, hresponse.1 c hc, hidle, hresponse⟩

/-! ### Coming replies -/

theorem State.reply_eq_replyAt (s : State) : s.reply = s.replyAt 0 := by
  cases h : s.bus <;> simp [State.reply, State.replyAt, h]

theorem State.SingleMaster.reply_others {s : State} (h : s.SingleMaster) : s.reply.others = [] := by
  obtain ⟨hbus, hrest⟩ := h
  unfold State.reply
  split
  · exact hrest
  next r rs he => exact hbus r (he ▸ List.mem_cons_self)

/-- With no other master a transaction's turn leaves the target's registers alone. -/
theorem State.SingleMaster.turn_reg {s : State} (h : s.SingleMaster) (b : Addr) : s.turn.reg b = s.reg b := by
  rw [State.reg, State.turn_regs, h.reply_others]
  rfl

/-! ### What a piece of pseudocode did (10_state.md rule R18, 60_exceptions.md rule R198) -/

/-- The cause of the transport fault that ended the pseudocode, if one did. -/
def Res.cause {α : Type} : Res α → Option Cause
  | .ok _ _ => none
  | .err e _ => e.cause

/-- The failed transactions among `es`: none, or the last event alone, with the given cause. -/
def FailsOnlyAtEnd : Option Cause → List Event → Prop
  | none, es => ∀ x ∈ es, x.isFault = false
  | some c, es => ∃ before x, es = before ++ [x] ∧ x.cause = some c ∧ ∀ y ∈ before, y.isFault = false

theorem FailsOnlyAtEnd.append {es fs : List Event} {c : Option Cause} (hes : FailsOnlyAtEnd none es)
    (hfs : FailsOnlyAtEnd c fs) : FailsOnlyAtEnd c (es ++ fs) := by
  cases c with
  | none => exact List.forall_mem_append.2 ⟨hes, hfs⟩
  | some c =>
    obtain ⟨before, x, rfl, hx, hbefore⟩ := hfs
    exact ⟨es ++ before, x, (List.append_assoc ..).symm, hx, List.forall_mem_append.2 ⟨hes, hbefore⟩⟩

/-- The number of bus transactions among the events. -/
abbrev transactions (es : List Event) : Nat := es.countP Event.isTransaction

/-- Pseudocode that began in `s` and ended as `r` added `es` to the trace, used one reply for each transaction of them,
stored to registers of `A` only, and was ended by no transport fault but its last transaction's. -/
structure Res.Did {α : Type} (s : State) (A : List Addr) (es : List Event) (r : Res α) : Prop where
  trace : r.state.trace = s.trace ++ es
  bus : r.state.bus = s.bus.drop (transactions es)
  busRest : r.state.busRest = s.busRest
  reg : s.SingleMaster → ∀ b, b ∉ A → r.state.reg b = s.reg b
  precise : FailsOnlyAtEnd r.cause es

theorem State.SingleMaster.of_did {α : Type} {s : State} {A : List Addr} {es : List Event} {r : Res α}
    (hs : s.SingleMaster) (h : r.Did s A es) : r.state.SingleMaster := by
  obtain ⟨hbus, hrest⟩ := hs
  exact ⟨fun x hx => hbus x (List.mem_of_mem_drop (h.bus ▸ hx)), h.busRest ▸ hrest⟩

/-- As `Res.Did`, with bounds on the transactions and the settling delays in place of the events. -/
def Res.Does {α : Type} (s : State) (A : List Addr) (n d : Nat) (r : Res α) : Prop :=
  ∃ es, r.Did s A es ∧ transactions es ≤ n ∧ es.count .dly ≤ d

theorem Res.Does.andThen {α β : Type} {s : State} {A : List Addr} {n d n' d' : Nat} {r : Res α}
    {k : α → State → Res β} (hr : r.Does s A n d) (hk : ∀ x (t : State), (k x t).Does t A n' d') :
    (r.andThen k).Does s A (n + n') (d + d') := by
  obtain ⟨es, h, hn, hd⟩ := hr
  cases r with
  | err e t => exact ⟨es, ⟨h.trace, h.bus, h.busRest, h.reg, h.precise⟩, by omega, by omega⟩
  | ok x t =>
    obtain ⟨fs, h', hn', hd'⟩ := hk x t
    refine ⟨es ++ fs, ⟨?_, ?_, h'.busRest.trans h.busRest, fun hs b hb => ?_, h.precise.append h'.precise⟩, ?_, ?_⟩
    · exact h'.trace.trans (by rw [← List.append_assoc]; exact congrArg (· ++ fs) h.trace)
    · rw [transactions, List.countP_append, ← List.drop_drop]
      exact h'.bus.trans (congrArg _ h.bus)
    · exact (h'.reg (hs.of_did h) b hb).trans (h.reg hs b hb)
    · rw [transactions, List.countP_append]
      exact Nat.add_le_add hn hn'
    · rw [List.count_append]
      exact Nat.add_le_add hd hd'

theorem Res.does_ok {α : Type} (x : α) (s : State) (A : List Addr) : (Res.ok x s).Does s A 0 0 :=
  ⟨[], ⟨(List.append_nil _).symm, rfl, rfl, fun _ _ _ => rfl, List.forall_mem_nil _⟩, le_rfl, le_rfl⟩

theorem State.does_delay (s : State) (A : List Addr) : (Res.ok () s.delay).Does s A 0 1 :=
  ⟨[.dly], ⟨rfl, rfl, rfl, fun _ _ _ => rfl, List.forall_mem_singleton.2 rfl⟩, le_rfl, le_rfl⟩

theorem State.does_readRegister (s : State) (a : Addr) (A : List Addr) : (s.readRegister a).Does s A 1 0 := by
  have hbus : s.turn.bus = s.bus.drop 1 := List.drop_one.symm
  rcases s.readRegister_cases a with ⟨c, _, h⟩ | ⟨_, _, h⟩ | ⟨_, _, h⟩ <;> rw [h]
  · exact ⟨[.rdFault a c], ⟨rfl, hbus, rfl, fun hs b _ => hs.turn_reg b, [], _, rfl, rfl, List.forall_mem_nil _⟩,
      le_rfl, le_rfl⟩
  all_goals
    exact ⟨[.rd a _ _], ⟨rfl, hbus, rfl, fun hs b _ => hs.turn_reg b, List.forall_mem_singleton.2 rfl⟩, le_rfl, le_rfl⟩

theorem State.does_writeRegister (s : State) {a : Addr} (v : Payload) {A : List Addr} (ha : a ∈ A) :
    (s.writeRegister a v).Does s A 1 0 := by
  have hbus : s.turn.bus = s.bus.drop 1 := List.drop_one.symm
  have hreg (v : Payload) (hs : s.SingleMaster) (b : Addr) (hb : b ∉ A) : (s.turn.setReg a v).reg b = s.reg b :=
    (s.turn.setReg_reg_ne v (ne_of_mem_of_not_mem ha hb).symm).trans (hs.turn_reg b)
  rcases s.writeRegister_cases a v with ⟨c, _, h⟩ | ⟨_, h⟩ <;> rw [h]
  · exact ⟨[.wrFault a _ _ c], ⟨rfl, hbus, rfl, hreg _, [], _, rfl, rfl, List.forall_mem_nil _⟩, le_rfl, le_rfl⟩
  · exact ⟨[.wr a _ _], ⟨rfl, hbus, rfl, hreg _, List.forall_mem_singleton.2 rfl⟩, le_rfl, le_rfl⟩

theorem State.does_writeMasked (s : State) {a : Addr} (v m : Payload) {A : List Addr} (ha : a ∈ A) :
    (s.writeMasked a v m).Does s A 2 0 :=
  (s.does_readRegister a A).andThen fun p t => by
    obtain ⟨es, h, hn, hd⟩ := (t.setTmp p).does_writeRegister (mergeField p v m) ha
    exact ⟨es, ⟨h.trace, h.bus, h.busRest, h.reg, h.precise⟩, hn, hd⟩

theorem State.does_writePaired (s : State) (f : Field) (fv : Payload) :
    (s.writePaired f fv).Does s [f.shadow, f.primary] 4 2 :=
  (s.does_writeMasked _ _ (by simp)).andThen fun _ t =>
    (t.does_delay _).andThen (k := fun _ u => (u.writeMasked f.primary _ f.mask).andThen fun _ u => .ok () u.delay)
      fun _ u => (u.does_writeMasked _ _ (by simp)).andThen fun _ u => u.does_delay _

theorem Answers.does {k : State → Res Response} (hk : Answers k) (s : State) (A : List Addr) : (k s).Does s A 0 0 := by
  cases hk with
  | result v => exact Res.does_ok _ s A
  | physical v hq => exact Res.does_ok _ s A
  | error e he =>
    exact ⟨[], ⟨(List.append_nil _).symm, rfl, rfl, fun _ _ _ => rfl, by
      rw [Res.cause, he]; exact List.forall_mem_nil _⟩, le_rfl, le_rfl⟩

theorem Res.Does.mono {α : Type} {s : State} {A : List Addr} {n d n' d' : Nat} {r : Res α} (h : r.Does s A n d)
    (hn : n ≤ n') (hd : d ≤ d') : r.Does s A n' d' := by
  obtain ⟨es, hes, hcount, hdly⟩ := h
  exact ⟨es, hes, hcount.trans hn, hdly.trans hd⟩

theorem Meaning.does {A : List Addr} {body : State → Res Response} (h : Meaning A body) (s : State) :
    (body s).Does s A 4 2 := by
  cases h with
  | answer A hk => exact (hk.does s A).mono (by decide) (by decide)
  | read a hk => exact ((s.does_readRegister a []).andThen fun p t => (hk p).does t []).mono (by decide) (by decide)
  | write a v =>
    exact ((s.does_writeRegister v List.mem_cons_self).andThen fun _ t => Res.does_ok _ t _).mono
      (by decide) (by decide)
  | maskedWrite a v m =>
    exact ((s.does_writeMasked v m List.mem_cons_self).andThen fun _ t => Res.does_ok _ t _).mono
      (by decide) (by decide)
  | pairedWrite f fv => exact (s.does_writePaired f fv).andThen fun _ t => Res.does_ok _ t _

/-! ### The account of an operation, from the command to the response -/

theorem Res.finish_bus (r : Res Response) : r.finish.bus = r.state.bus := by
  cases r <;> rfl

theorem Res.finish_reg (r : Res Response) (b : Addr) : r.finish.reg b = r.state.reg b := by
  cases r <;> rfl

theorem Res.finish_tcause (r : Res Response) : r.finish.tcause = r.cause := by
  cases r <;> rfl

theorem Raise.status_eq_transport_iff (e : Raise) : e.status = 3#3 ↔ e.cause.isSome := by
  cases e <;> simp

theorem Res.finish_status_eq_transport_iff (r : Res Response) : r.finish.status = some 3#3 ↔ r.cause.isSome := by
  cases r with
  | ok r t => simp [Res.cause]
  | err e t => simp [Res.cause, e.status_eq_transport_iff]

/-- Settles O24: acceptance and response leave REG alone, and the pseudocode stores where `stores` says. -/
theorem onlyAddressedRegistersChange : Obligations.OnlyAddressedRegistersChange := by
  intro i s t hs h b hb
  obtain ⟨body, hbody, hexec⟩ := exec_next i
  obtain rfl := Host.Outcome.next.inj ((hexec s).symm.trans h)
  obtain ⟨es, hdid, -, -⟩ := hbody.does s.accept
  exact (Res.finish_reg _ b).trans (hdid.reg hs b hb)

/-- Settles O44, by the account of the operation's pseudocode. -/
theorem traceAccountsForEveryTransaction : Obligations.TraceAccountsForEveryTransaction := by
  intro i s t h
  obtain ⟨body, hbody, hexec⟩ := exec_next i
  obtain rfl := Host.Outcome.next.inj ((hexec s).symm.trans h)
  obtain ⟨es, hdid, hn, hd⟩ := hbody.does s.accept
  exact ⟨es, (Res.finish_trace _).trans hdid.trace, hn, hd, (Res.finish_bus _).trans hdid.bus⟩

/-- Settles O43: STATUS is TRANSPORT exactly when the pseudocode was ended by a failed transaction, and then that
transaction is its last event. -/
theorem transportErrorsArePrecise : Obligations.TransportErrorsArePrecise := by
  intro i s t h
  obtain ⟨body, hbody, hexec⟩ := exec_next i
  obtain rfl := Host.Outcome.next.inj ((hexec s).symm.trans h)
  obtain ⟨es, hdid, -, -⟩ := hbody.does s.accept
  have hprecise := hdid.precise
  refine ⟨es, (Res.finish_trace _).trans hdid.trace, ?_⟩
  rw [ne_eq, Res.finish_status_eq_transport_iff, Res.finish_tcause]
  cases hc : (body s.accept).cause with
  | none =>
    rw [hc] at hprecise
    exact ⟨nofun, fun _ => hprecise⟩
  | some c =>
    rw [hc] at hprecise
    obtain ⟨before, x, hes, hx, hbefore⟩ := hprecise
    exact ⟨fun _ => ⟨before, x, c, hes, hx, rfl, hbefore⟩, fun hs => absurd rfl hs⟩

/-! ### What no pseudocode looks at (10_state.md rules R10 and R16, 20_memory.md rule R30) -/

/-- Acceptance overwrites the response and the transient state, so nothing of them is left to look at. -/
theorem State.accept_congr {s s' : State} (hcfg : s'.cfg = s.cfg) (htrace : s'.trace = s.trace)
    (hregs : s'.regs = s.regs) (hbus : s'.bus = s.bus) (hrest : s'.busRest = s.busRest) (hcmds : s'.cmds = s.cmds)
    (hidx : s'.cmdIdx = s.cmdIdx) (hstop : s'.stopped = s.stopped) : s'.accept = s.accept := by
  rw [State.accept, State.accept, hcfg, htrace, hregs, hbus, hrest, hcmds, hidx, hstop]

/-- Settles O45: the pseudocode begins in the accepted state, which forgets both. -/
theorem operationsForgetEarlierResponses : Obligations.OperationsForgetEarlierResponses := by
  intro i s s' hcfg htrace hregs hbus hrest hcmds hidx hstop
  obtain ⟨body, -, hexec⟩ := exec_next i
  rw [hexec, hexec, State.accept_congr hcfg htrace hregs hbus hrest hcmds hidx hstop]

/-- A change of the state that no pseudocode sees and every update of the state respects. -/
structure Unseen (f : State → State) : Prop where
  reply : ∀ s, (f s).reply = s.reply
  reg : ∀ s a, (f s).reg a = s.reg a
  crcPoly : ∀ s, (f s).cfg.crcPoly = s.cfg.crcPoly
  convert : ∀ {q}, IgnoresTiming q → ∀ s, q (f s).cfg = q s.cfg
  turn : ∀ s, (f s).turn = f s.turn
  setFrm : ∀ s x, (f s).setFrm x = f (s.setFrm x)
  setTmp : ∀ s x, (f s).setTmp x = f (s.setTmp x)
  setReg : ∀ s a v, (f s).setReg a v = f (s.setReg a v)
  record : ∀ s e, (f s).record e = f (s.record e)
  respond : ∀ s r, (f s).respond r = f (s.respond r)
  raiseError : ∀ s e, (f s).raiseError e = f (s.raiseError e)

/-- The same result with the state changed. -/
def Res.mapState {α : Type} (f : State → State) : Res α → Res α
  | .ok x s => .ok x (f s)
  | .err e s => .err e (f s)

theorem Res.andThen_eq_mapState {α β : Type} {f : State → State} {r r' : Res α} {k : α → State → Res β}
    (hr : r' = r.mapState f) (hk : ∀ x t, k x (f t) = (k x t).mapState f) :
    r'.andThen k = (r.andThen k).mapState f := by
  subst hr
  cases r with
  | ok x t => exact hk x t
  | err e t => rfl

namespace Unseen

variable {f : State → State} (hf : Unseen f)

include hf

theorem incoming (s : State) (a : Addr) : (f s).incoming a = s.incoming a := by
  rw [State.incoming, State.incoming, hf.reply, hf.crcPoly, hf.turn, hf.reg]

theorem readRegister (s : State) (a : Addr) : (f s).readRegister a = (s.readRegister a).mapState f := by
  have hincoming := hf.incoming s a
  rcases s.readRegister_cases a with ⟨c, hc, h⟩ | ⟨hc, hv, h⟩ | ⟨hc, hv, h⟩ <;> rw [h]
  · rw [State.readRegister_of_fault a ((hf.reply s).symm ▸ hc), hf.turn, hf.record]
    rfl
  · rw [State.readRegister_of_invalid a ((hf.reply s).symm ▸ hc) (by simp [hf.crcPoly, hincoming, hv]), hincoming,
      hf.turn, hf.setFrm, hf.record]
    rfl
  · rw [State.readRegister_of_valid a ((hf.reply s).symm ▸ hc) (by simp [hf.crcPoly, hincoming, hv]), hincoming,
      hf.turn, hf.setFrm, hf.record]
    rfl

theorem writeRegister (s : State) (a : Addr) (v : Payload) :
    (f s).writeRegister a v = (s.writeRegister a v).mapState f := by
  rw [State.writeRegister, State.writeRegister, hf.crcPoly]
  cases h : s.reply.fault with
  | some c =>
    rw [State.memWrite_fault a _ h, State.memWrite_fault a _ ((hf.reply s).symm ▸ h), hf.reply, hf.turn, hf.reg,
      hf.setFrm, hf.setReg, hf.record]
    rfl
  | none =>
    rw [State.memWrite_completes a _ h, State.memWrite_completes a _ ((hf.reply s).symm ▸ h), hf.reply, hf.turn,
      hf.setFrm, hf.setReg, hf.record]
    rfl

theorem writeMasked (s : State) (a : Addr) (v m : Payload) :
    (f s).writeMasked a v m = (s.writeMasked a v m).mapState f :=
  Res.andThen_eq_mapState (hf.readRegister s a) fun p t => by rw [hf.setTmp, hf.writeRegister]

theorem writePaired (s : State) (g : Field) (fv : Payload) :
    (f s).writePaired g fv = (s.writePaired g fv).mapState f := by
  refine Res.andThen_eq_mapState (hf.writeMasked s _ _ _) fun _ t => ?_
  rw [State.delay, hf.record]
  exact Res.andThen_eq_mapState (hf.writeMasked _ _ _ _) fun _ u => congrArg (Res.ok ()) (hf.record u .dly)

theorem answers {k : State → Res Response} (hk : Answers k) (s : State) : k (f s) = (k s).mapState f := by
  cases hk with
  | result v => rfl
  | physical v hq => exact congrArg (fun x => Res.ok (Response.mk (some v) (some x)) (f s)) (hf.convert hq s)
  | error e he => rfl

theorem meaning {A : List Addr} {body : State → Res Response} (h : Meaning A body) (s : State) :
    body (f s) = (body s).mapState f := by
  cases h with
  | answer A hk => exact hf.answers hk s
  | read a hk => exact Res.andThen_eq_mapState (hf.readRegister s a) fun p t => hf.answers (hk p) t
  | write a v => exact Res.andThen_eq_mapState (hf.writeRegister s a v) fun _ _ => rfl
  | maskedWrite a v m => exact Res.andThen_eq_mapState (hf.writeMasked s a v m) fun _ _ => rfl
  | pairedWrite g fv => exact Res.andThen_eq_mapState (hf.writePaired s g fv) fun _ _ => rfl

theorem finish (r : Res Response) : (r.mapState f).finish = f r.finish := by
  cases r with
  | ok r t => exact hf.respond t r
  | err e t => exact hf.raiseError t e

/-- An operation accepted in the changed state ends in the end state changed alike. -/
theorem exec {i : Instr} {s s' t : State} (h : exec i s = .next t) (haccept : s'.accept = f s.accept) :
    Machine.exec i s' = .next (f t) := by
  obtain ⟨body, hbody, hexec⟩ := exec_next i
  obtain rfl := Host.Outcome.next.inj ((hexec s).symm.trans h)
  rw [hexec, haccept, hf.meaning hbody, hf.finish]

end Unseen

/-- The state with another bus address and another length of the settling delay. -/
def State.withTiming (d : BitVec 7) (ms : Rat) (s : State) : State :=
  { s with cfg := { s.cfg with devAddr := d, delayMs := ms } }

theorem State.withTiming_unseen (d : BitVec 7) (ms : Rat) : Unseen (State.withTiming d ms) where
  reply _ := rfl
  reg _ _ := rfl
  crcPoly _ := rfl
  convert hq s := hq s.cfg d ms
  turn _ := rfl
  setFrm _ _ := rfl
  setTmp _ _ := rfl
  setReg _ _ _ := rfl
  record _ _ := rfl
  respond _ _ := rfl
  raiseError _ _ := rfl

/-- Settles O46: a change of the timing parameters commutes with every form of pseudocode. -/
theorem deviceAddressAndDelayLengthEnterNothing : Obligations.DeviceAddressAndDelayLengthEnterNothing :=
  fun _ _ _ d ms h => (State.withTiming_unseen d ms).exec h rfl

/-- The state with earlier events put before its trace. -/
def State.withHistory (before : List Event) (s : State) : State := { s with trace := before ++ s.trace }

theorem State.withHistory_unseen (before : List Event) : Unseen (State.withHistory before) where
  reply _ := rfl
  reg _ _ := rfl
  crcPoly _ := rfl
  convert _ _ := rfl
  turn _ := rfl
  setFrm _ _ := rfl
  setTmp _ _ := rfl
  setReg _ _ _ := rfl
  record s e := by simp only [State.record, State.withHistory, List.append_assoc]
  respond _ _ := rfl
  raiseError _ _ := rfl

theorem State.accept_eq_withHistory (s : State) : s.accept = s.blockReset.accept.withHistory s.trace := by
  rw [State.withHistory, State.accept_trace, State.blockReset_trace, List.append_nil]
  rfl

/-- Settles O52: but for its trace the state after a reset is accepted as the state before it. -/
theorem blockResetTouchesNothingOutside : Obligations.BlockResetTouchesNothingOutside := fun s =>
  ⟨rfl, rfl, rfl, rfl, ⟨rfl, rfl, rfl, rfl⟩, fun _ _ h =>
    (State.withHistory_unseen s.trace).exec h s.accept_eq_withHistory⟩

end Sys2Proof.Machine
end

section
/-! The machine (10_state.md rules R12, R13, R15 and R20): what a step does with a presented command, the invariant of
every state between two steps, the state after reset, and the statements O48, O49, O51, O53, O55 and O56. -/

namespace Sys2Proof.Machine

/-! ### The host's turn (10_state.md rule R15) -/

/-- After OK the host goes on to the next command of its list. -/
theorem State.hostNext_of_status {s : State} (h : s.status = some 0#3) :
    s.hostNext = { s with cmds := s.cmds.tail, cmdIdx := s.cmdIdx + 1 } :=
  if_pos h

theorem State.hostNext_inv {s : State} (h : s.Inv) : s.hostNext.Inv := by
  by_cases hs : s.status = some 0#3
  · rw [State.hostNext_of_status hs]
    exact h
  · rw [State.hostNext_of_status_ne hs]
    exact h

theorem State.status_hostNext (s : State) : s.hostNext.status = s.status := by
  by_cases hs : s.status = some 0#3
  · rw [State.hostNext_of_status hs]
  · rw [State.hostNext_of_status_ne hs]

/-! ### What a step can do (log 11, 10_state.md rule R21) -/

theorem step_of_presented_none {s : State} (hbusy : s.busy = false) (hw : s.presented = none) : step s = .next s := by
  simp [step, hbusy, hw]

theorem step_of_decode_ok {s t : State} {w : Command} {i : Instr} (hbusy : s.busy = false)
    (hw : s.presented = some w) (hdec : decode w = .ok i) (hexec : exec i s = .next t) :
    step s = .next t.hostNext := by
  simp [step, hbusy, hw, hdec, hexec]

/-- A step that gives a next state found the block idle, and left the state, refused a word or ran an operation. -/
theorem step_cases {s t : State} (h : step s = .next t) :
    (s.presented = none ∧ t = s) ∨ ∃ w, s.presented = some w ∧
      ((∃ e, decode w = .error e ∧ t = s.rejectIllegal.hostNext) ∨
        ∃ i u, decode w = .ok i ∧ exec i s = .next u ∧ t = u.hostNext) := by
  cases hbusy : s.busy with
  | true => simp [step, hbusy] at h
  | false =>
    cases hw : s.presented with
    | none => exact .inl ⟨rfl, Host.Outcome.next.inj (h.symm.trans (step_of_presented_none hbusy hw))⟩
    | some w =>
      refine .inr ⟨w, rfl, ?_⟩
      cases hdec : decode w with
      | error e => exact .inl ⟨e, rfl, Host.Outcome.next.inj (h.symm.trans (step_of_decode_error hbusy hw hdec))⟩
      | ok i =>
        obtain ⟨body, -, hexec⟩ := exec_next i
        exact .inr ⟨i, _, rfl, hexec s,
          Host.Outcome.next.inj (h.symm.trans (step_of_decode_ok hbusy hw hdec (hexec s)))⟩

/-! ### The invariant -/

theorem exec_inv {i : Instr} {s t : State} (hs : s.Inv) (h : exec i s = .next t) : t.Inv := by
  obtain ⟨-, -, hregs, hcfg⟩ := hs
  obtain ⟨hidle, hresponse⟩ := exec_responseOk h
  have hk := exec_keeps h
  exact ⟨hidle, hresponse, hk.regs hregs, hk.cfg ▸ hcfg⟩

theorem State.rejectIllegal_inv {s : State} (hs : s.Inv) : s.rejectIllegal.Inv := by
  obtain ⟨-, -, hregs, hcfg⟩ := hs
  exact ⟨⟨rfl, rfl, rfl, rfl⟩, s.accept.raiseError_responseOk .illegal, hregs, hcfg⟩

/-- Settles O48, by what a step can do: each operation establishes the idle block and a legal response and keeps the
rest, the refusal likewise, and the host's turn touches none of it. -/
theorem everyStepKeepsTheInvariant : Obligations.EveryStepKeepsTheInvariant := by
  intro s t hs h
  obtain ⟨-, rfl⟩ | ⟨w, -, ⟨e, -, rfl⟩ | ⟨i, u, -, hexec, rfl⟩⟩ := step_cases h
  · exact hs
  · exact State.hostNext_inv (State.rejectIllegal_inv hs)
  · exact State.hostNext_inv (exec_inv hs hexec)

/-- Settles O49: REG lists nothing, and the parameters are well formed for every value of the free constants. -/
theorem resetMeetsTheInvariant : Obligations.ResetMeetsTheInvariant :=
  ⟨⟨rfl, rfl, rfl, rfl⟩, ⟨nofun, nofun, nofun, nofun, nofun⟩, rfl, Config.params_wf⟩

/-- Settles O51: the entry of the gain table at 50 is part of the parameters' well-formedness. -/
theorem resetTakesTheDefaultParameters : Obligations.ResetTakesTheDefaultParameters := by
  obtain ⟨-, -, -, h50⟩ := Config.params_wf
  exact ⟨rfl, rfl, rfl, rfl, rfl, rfl, rfl, rfl, rfl, h50⟩

/-! ### The host's list -/

/-- Settles O53: the operation keeps the host's list and its place in it, so the host goes on from there. -/
theorem stepRunsTheDecodedCommand : Obligations.StepRunsTheDecodedCommand := by
  intro s w rest i hbusy hstop hcmds hdec
  obtain ⟨body, -, hexec⟩ := exec_next i
  have hk := exec_keeps (hexec s)
  have hstep := step_of_decode_ok hbusy (State.presented_of_cmds hstop hcmds) hdec (hexec s)
  refine ⟨_, hexec s, fun hs => ?_, fun hs => ?_⟩
  · rw [hstep, State.hostNext_of_status hs, hk.cmds, hk.cmdIdx, hcmds, List.tail_cons]
  · rw [hstep, State.hostNext_of_status_ne hs]

theorem State.presented_of_stopped {s : State} (h : s.stopped = true) : s.presented = none := by
  rw [State.presented, if_pos h]

theorem State.presented_of_cmds_nil {s : State} (h : s.cmds = []) : s.presented = none := by
  rw [State.presented, h]
  exact ite_self _

/-- A command that ends with an error stops the host where it is, with the block idle. -/
theorem State.hostNext_stops {s u : State} (hk : s.Keeps u) (hidle : u.busy = false) (hu : u.status ≠ some 0#3) :
    u.hostNext.stopped = true ∧ u.hostNext.cmds = s.cmds ∧ u.hostNext.cmdIdx = s.cmdIdx ∧
      step u.hostNext = .next u.hostNext := by
  rw [State.hostNext_of_status_ne hu]
  exact ⟨rfl, hk.cmds, hk.cmdIdx, step_of_presented_none hidle (State.presented_of_stopped rfl)⟩

/-- Settles O55, by what the step did: with a command presented it refused a word or ran an operation. -/
theorem hostStopsAtTheFirstErrorUntilANewProgram : Obligations.HostStopsAtTheFirstErrorUntilANewProgram := by
  refine ⟨fun s hbusy h => step_of_presented_none hbusy
    (h.elim State.presented_of_stopped State.presented_of_cmds_nil), fun s t hstop hcmds h ht => ?_,
    fun s w rest => rfl⟩
  obtain ⟨w, rest, hcmds⟩ := List.exists_cons_of_ne_nil hcmds
  have hw := State.presented_of_cmds hstop hcmds
  obtain ⟨hnone, -⟩ | ⟨w, -, ⟨e, -, rfl⟩ | ⟨i, u, -, hexec, rfl⟩⟩ := step_cases h
  · rw [hw] at hnone
    cases hnone
  · exact State.hostNext_stops (s.keeps_accept.trans (s.accept.keeps_raiseError .illegal)) rfl
      s.status_rejectIllegal_ne
  · obtain ⟨⟨hidle, -, -, -⟩, -⟩ := exec_responseOk hexec
    exact State.hostNext_stops (exec_keeps hexec) hidle (u.status_hostNext ▸ ht)

theorem State.presented_withFetchWord (s : State) (w : Command) : (s.withFetchWord 48 w.toNat).presented = some w := by
  have hw : BitVec.ofNat 48 (w.toNat % 2 ^ 48) = w := by
    rw [Nat.mod_eq_of_lt w.isLt, BitVec.ofNat_toNat, BitVec.setWidth_eq]
  exact congrArg some hw

/-- Settles O56: the word placed is the word presented, and it decodes to its operation (O57). -/
theorem encodedCommandRunsItsOperation : Obligations.EncodedCommandRunsItsOperation := by
  intro s i hwf
  obtain ⟨body, -, hexec⟩ := exec_next i
  exact ⟨_, hexec _, step_of_decode_ok rfl (s.presented_withFetchWord _) (decodeOfEncodeIsTheOperation i hwf)
    (hexec _)⟩

end Sys2Proof.Machine
end

section
/-! The CRC Engine as division over GF(2) (40_crc.md rules R80 to R92): the multiples of a polynomial, the remainder as
the one value below 2^n that differs from the working value by a multiple, the laws that follow from its uniqueness,
and the statements O2 to O8. -/

namespace Sys2Proof.Machine

/-! ### The multiples of a polynomial over GF(2) (rule R85) -/

/-- The GF(2) multiples of `poly`, in Horner form: twice a multiple, with the polynomial added or not. -/
inductive Multiple (poly : Nat) : Nat → Prop
  | zero : Multiple poly 0
  | double {x : Nat} (hx : Multiple poly x) : Multiple poly (x <<< 1)
  | doubleAdd {x : Nat} (hx : Multiple poly x) : Multiple poly (x <<< 1 ^^^ poly)

theorem xorShifts_append (poly : Nat) (ks ls : List Nat) :
    xorShifts poly (ks ++ ls) = xorShifts poly ks ^^^ xorShifts poly ls := by
  induction ks with
  | nil => simp [xorShifts]
  | cons k ks ih => simp [xorShifts, ih, Nat.xor_assoc]

theorem xorShifts_map_succ (poly : Nat) (ks : List Nat) :
    xorShifts poly (ks.map (· + 1)) = xorShifts poly ks <<< 1 := by
  induction ks with
  | nil => rfl
  | cons k ks ih => simp only [List.map_cons, xorShifts, ih, Nat.shiftLeft_xor_distrib, Nat.shiftLeft_add]

theorem xor_xor_xor_comm (a b c d : Nat) : (a ^^^ b) ^^^ (c ^^^ d) = (a ^^^ c) ^^^ (b ^^^ d) := by
  rw [Nat.xor_assoc, Nat.xor_left_comm b, ← Nat.xor_assoc]

theorem Multiple.xor {poly x y : Nat} (hx : Multiple poly x) (hy : Multiple poly y) : Multiple poly (x ^^^ y) := by
  induction hx generalizing y with
  | zero => rwa [Nat.zero_xor]
  | @double x hx ih =>
    cases hy with
    | zero => exact (Nat.xor_zero _).symm ▸ hx.double
    | @double y hy => exact Nat.shiftLeft_xor_distrib ▸ (ih hy).double
    | @doubleAdd y hy =>
      rw [← Nat.xor_assoc, ← Nat.shiftLeft_xor_distrib]
      exact (ih hy).doubleAdd
  | @doubleAdd x hx ih =>
    cases hy with
    | zero => exact (Nat.xor_zero _).symm ▸ hx.doubleAdd
    | @double y hy =>
      rw [Nat.xor_right_comm, ← Nat.shiftLeft_xor_distrib]
      exact (ih hy).doubleAdd
    | @doubleAdd y hy =>
      rw [xor_xor_xor_comm, Nat.xor_self, Nat.xor_zero, ← Nat.shiftLeft_xor_distrib]
      exact (ih hy).double

theorem multiple_shiftLeft (poly k : Nat) : Multiple poly (poly <<< k) := by
  induction k with
  | zero => simpa using Multiple.zero.doubleAdd (poly := poly)
  | succ k ih => exact Nat.shiftLeft_add .. ▸ ih.double

theorem multiple_xorShifts (poly : Nat) (ks : List Nat) : Multiple poly (xorShifts poly ks) := by
  induction ks with
  | nil => exact .zero
  | cons k ks ih => exact (multiple_shiftLeft poly k).xor ih

/-- The Horner form reaches the multiples of the statements, and no other values. -/
theorem multiple_iff_exists_xorShifts {poly x : Nat} : Multiple poly x ↔ ∃ ks, x = xorShifts poly ks := by
  refine ⟨fun h => ?_, fun ⟨ks, h⟩ => h ▸ multiple_xorShifts poly ks⟩
  induction h with
  | zero => exact ⟨[], rfl⟩
  | double hx ih =>
    obtain ⟨ks, rfl⟩ := ih
    exact ⟨ks.map (· + 1), (xorShifts_map_succ poly ks).symm⟩
  | doubleAdd hx ih =>
    obtain ⟨ks, rfl⟩ := ih
    refine ⟨ks.map (· + 1) ++ [0], ?_⟩
    simp [xorShifts_append, xorShifts_map_succ, xorShifts]

/-- Of two numbers of different bit lengths the longer one gives the bit length of their exclusive OR. -/
theorem bitlen_xor_of_lt {x y : Nat} (h : bitlen y < bitlen x) : bitlen (x ^^^ y) = bitlen x := by
  obtain ⟨m, hm⟩ := Nat.exists_eq_succ_of_ne_zero (Nat.ne_zero_of_lt h)
  have hle : bitlen (x ^^^ y) ≤ bitlen x := bitlen_le.2 (Nat.xor_lt_two_pow (bitlen_le.1 le_rfl) (bitlen_le.1 h.le))
  have hbit : (x ^^^ y).testBit m = true := by
    rw [Nat.testBit_xor, testBit_of_bitlen_eq_succ hm, testBit_of_bitlen_le (by omega), Bool.xor_false]
  have hlt : m < bitlen (x ^^^ y) := lt_bitlen.2 (Nat.ge_two_pow_of_testBit hbit)
  omega

/-- A multiple shorter than the polynomial is 0: doubling lengthens a nonzero multiple beyond it. -/
theorem Multiple.eq_zero_or_le_bitlen {poly x : Nat} (h : Multiple poly x) : x = 0 ∨ bitlen poly ≤ bitlen x := by
  induction h with
  | zero => exact .inl rfl
  | @double x hx ih =>
    rcases eq_or_ne x 0 with rfl | hne
    · exact .inl rfl
    · have := ih.resolve_left hne
      rw [bitlen_shiftLeft 1 hne]
      exact .inr (by omega)
  | @doubleAdd x hx ih =>
    rcases eq_or_ne x 0 with rfl | hne
    · exact .inr (by rw [Nat.zero_shiftLeft, Nat.zero_xor])
    · have := ih.resolve_left hne
      have hlen := bitlen_shiftLeft 1 hne
      rw [bitlen_xor_of_lt (by omega), hlen]
      exact .inr (by omega)

/-! ### The remainder (rules R82 to R85) -/

theorem multiple_xor_divLoop (poly fuel w : Nat) : Multiple poly (w ^^^ divLoop poly fuel w) := by
  induction fuel generalizing w with
  | zero => rw [divLoop, Nat.xor_self]; exact .zero
  | succ fuel ih =>
    rw [divLoop]
    split
    · have hpass : w ^^^ divPass poly w = poly <<< (bitlen w - bitlen poly) := by
        rw [divPass, Nat.xor_xor_cancel_left]
      have h := (multiple_shiftLeft poly (bitlen w - bitlen poly)).xor (ih (divPass poly w))
      rwa [← hpass, Nat.xor_assoc, Nat.xor_xor_cancel_left] at h
    · rw [Nat.xor_self]
      exact .zero

theorem lt_bitlen_of_checkWidth {poly : Nat} (hp : poly ≠ 0) : checkWidth poly < bitlen poly :=
  Nat.sub_lt (bitlen_pos hp) one_pos

/-- Two values below 2^n that differ from the same value by multiples are equal. -/
theorem eq_of_multiple_xor {poly w r r' : Nat} (hp : poly ≠ 0) (hr : r < 2 ^ checkWidth poly)
    (hr' : r' < 2 ^ checkWidth poly) (h : Multiple poly (w ^^^ r)) (h' : Multiple poly (w ^^^ r')) : r = r' := by
  have hdiff : Multiple poly (r ^^^ r') := by
    have := h.xor h'
    rwa [xor_xor_xor_comm, Nat.xor_self, Nat.zero_xor] at this
  have hlen : bitlen (r ^^^ r') < bitlen poly :=
    (bitlen_le.2 (Nat.xor_lt_two_pow hr hr')).trans_lt (lt_bitlen_of_checkWidth hp)
  exact Nat.xor_eq_zero_iff.1 (hdiff.eq_zero_or_le_bitlen.resolve_right (by omega))

theorem multiple_workValue_xor_crc {poly : Nat} (word filler : Nat) (hp : poly ≠ 0) :
    Multiple poly (workValue word poly filler ^^^ crc word poly filler) := by
  rw [crc_eq_divLoop word filler hp]
  exact multiple_xor_divLoop ..

/-- `crc` is the one value below 2^n that differs from the working value by a multiple of the polynomial. -/
theorem crc_eq {poly word filler r : Nat} (hp : poly ≠ 0) (hr : r < 2 ^ checkWidth poly)
    (h : Multiple poly (workValue word poly filler ^^^ r)) : crc word poly filler = r :=
  eq_of_multiple_xor hp (crc_lt word filler hp) hr (multiple_workValue_xor_crc word filler hp) h

/-- Settles O3: the loop subtracts multiples only, and two remainders below 2^n that differ by a multiple are
equal. -/
theorem crcIsTheUniqueGfTwoRemainder : Obligations.CrcIsTheUniqueGfTwoRemainder := by
  intro word poly filler h
  have hp := Nat.one_le_iff_ne_zero.1 h
  refine ⟨⟨bitlen_le.2 (crc_lt word filler hp),
      multiple_iff_exists_xorShifts.1 (multiple_workValue_xor_crc word filler hp)⟩,
    fun r hr hks => (crc_eq hp (bitlen_le.1 hr) (multiple_iff_exists_xorShifts.2 hks)).symm⟩

/-! ### The loop's bound (rule R84) -/

theorem divLoop_of_bitlen_le {poly w : Nat} (h : bitlen w ≤ checkWidth poly) (fuel : Nat) :
    divLoop poly fuel w = w := by
  cases fuel with
  | zero => rfl
  | succ fuel => rw [divLoop, if_neg (Nat.not_lt.2 h)]

/-- Passes beyond those that end the loop change nothing: both ends are remainders of the same value. -/
theorem divLoop_eq_of_le {poly fuel fuel' w : Nat} (hp : poly ≠ 0) (h : bitlen w - checkWidth poly ≤ fuel)
    (h' : bitlen w - checkWidth poly ≤ fuel') : divLoop poly fuel w = divLoop poly fuel' w :=
  eq_of_multiple_xor hp (bitlen_le.1 (bitlen_divLoop_le hp fuel w h)) (bitlen_le.1 (bitlen_divLoop_le hp fuel' w h'))
    (multiple_xor_divLoop poly fuel w) (multiple_xor_divLoop poly fuel' w)

theorem bitlen_workValue_le {word poly filler ww : Nat} (hword : word < 2 ^ ww)
    (hfiller : filler < 2 ^ checkWidth poly) : bitlen (workValue word poly filler) ≤ ww + checkWidth poly := by
  refine bitlen_le.2 (Nat.or_lt_two_pow (Nat.shiftLeft_lt hword) (hfiller.trans_le ?_))
  exact Nat.pow_le_pow_right Nat.two_pos (Nat.le_add_left _ _)

/-- Settles O2: each pass clears the top bit, and both ends of two long enough loops are the one remainder. -/
theorem divisionLoopTerminatesWithinItsBound : Obligations.DivisionLoopTerminatesWithinItsBound := by
  intro poly w h
  have hp := Nat.one_le_iff_ne_zero.1 h
  exact ⟨bitlen_divPass_lt hp, fun fuel hfuel => ⟨bitlen_divLoop_le hp fuel w hfuel, divLoop_eq_of_le hp hfuel le_rfl⟩,
    divLoop_of_bitlen_le, fun ww word filler hword hfiller =>
      Nat.sub_le_iff_le_add.2 (bitlen_workValue_le hword hfiller)⟩

/-! ### The laws of the algebraic form -/

/-- A filler below 2^n stands in bits the shifted word leaves zero. -/
theorem shiftLeft_or_eq_xor {f n : Nat} (w : Nat) (hf : f < 2 ^ n) : w <<< n ||| f = w <<< n ^^^ f := by
  refine Nat.eq_of_testBit_eq fun i => ?_
  rw [Nat.testBit_or, Nat.testBit_xor, Nat.testBit_shiftLeft]
  rcases lt_or_ge i n with hi | hi
  · simp [Nat.not_le.2 hi]
  · rw [Nat.testBit_lt_two_pow (hf.trans_le (Nat.pow_le_pow_right Nat.two_pos hi)), Bool.or_false, Bool.xor_false]

/-- A number is its bits from `n` up and, in the bits they leave zero, its low bits. -/
theorem shiftLeft_shiftRight_xor_mod (x n : Nat) : x >>> n <<< n ^^^ x % 2 ^ n = x := by
  have hlow := Nat.mod_lt x (Nat.two_pow_pos n)
  rw [← shiftLeft_or_eq_xor _ hlow, ← Nat.shiftLeft_add_eq_or_of_lt hlow, Nat.shiftLeft_eq, Nat.shiftRight_eq_div_pow,
    Nat.div_add_mod']

theorem workValue_eq_xor {poly f : Nat} (w : Nat) (hf : f < 2 ^ checkWidth poly) :
    workValue w poly f = w <<< checkWidth poly ^^^ f :=
  shiftLeft_or_eq_xor w hf

theorem workValue_xor {poly f₁ f₂ : Nat} (a b : Nat) (h₁ : f₁ < 2 ^ checkWidth poly) (h₂ : f₂ < 2 ^ checkWidth poly) :
    workValue (a ^^^ b) poly (f₁ ^^^ f₂) = workValue a poly f₁ ^^^ workValue b poly f₂ := by
  rw [workValue_eq_xor _ h₁, workValue_eq_xor _ h₂, workValue_eq_xor _ (Nat.xor_lt_two_pow h₁ h₂),
    Nat.shiftLeft_xor_distrib, xor_xor_xor_comm]

theorem crc_xor {poly f₁ f₂ : Nat} (a b : Nat) (hp : poly ≠ 0) (h₁ : f₁ < 2 ^ checkWidth poly)
    (h₂ : f₂ < 2 ^ checkWidth poly) : crc (a ^^^ b) poly (f₁ ^^^ f₂) = crc a poly f₁ ^^^ crc b poly f₂ := by
  refine crc_eq hp (Nat.xor_lt_two_pow (crc_lt a f₁ hp) (crc_lt b f₂ hp)) ?_
  rw [workValue_xor a b h₁ h₂, xor_xor_xor_comm]
  exact (multiple_workValue_xor_crc a f₁ hp).xor (multiple_workValue_xor_crc b f₂ hp)

/-- The word 0 leaves the filler to be divided, and there is nothing to divide in it. -/
theorem crc_zero_word {poly f : Nat} (hp : poly ≠ 0) (hf : f < 2 ^ checkWidth poly) : crc 0 poly f = f := by
  refine crc_eq hp hf ?_
  rw [workValue_eq_xor 0 hf, Nat.zero_shiftLeft, Nat.zero_xor, Nat.xor_self]
  exact .zero

/-- The filler is added to the remainder. -/
theorem crc_eq_xor_filler {poly f : Nat} (w : Nat) (hp : poly ≠ 0) (hf : f < 2 ^ checkWidth poly) :
    crc w poly f = crc w poly 0 ^^^ f := by
  have h := crc_xor w 0 hp (Nat.two_pow_pos _) hf
  rwa [Nat.xor_zero, Nat.zero_xor, crc_zero_word hp hf] at h

theorem checkWidth_two_pow (n : Nat) : checkWidth (2 ^ n) = n := by
  rw [checkWidth, bitlen_eq_size, Nat.size_pow, Nat.add_sub_cancel]

/-- Every number with its low `n` bits zero is a multiple of the power of two, by Horner's scheme over its bits. -/
theorem multiple_two_pow (n w : Nat) : Multiple (2 ^ n) (w <<< n) := by
  induction w using Nat.strong_induction_on with
  | h w ih =>
    rcases Nat.eq_zero_or_pos w with rfl | hw
    · rw [Nat.zero_shiftLeft]
      exact .zero
    have hhalf : Multiple (2 ^ n) (w >>> 1 <<< n) := ih _ (Nat.div_lt_self hw one_lt_two)
    rw [← shiftLeft_shiftRight_xor_mod w 1, Nat.shiftLeft_xor_distrib, ← Nat.shiftLeft_add, Nat.add_comm,
      Nat.shiftLeft_add]
    rcases Nat.mod_two_eq_zero_or_one w with h | h <;> rw [pow_one, h]
    · rw [Nat.zero_shiftLeft, Nat.xor_zero]
      exact hhalf.double
    · rw [Nat.one_shiftLeft]
      exact hhalf.doubleAdd

/-- A power of two as the polynomial leaves the low bits of the working value. -/
theorem crc_two_pow (n w f : Nat) : crc w (2 ^ n) f = ((w <<< n) ||| f) % 2 ^ n := by
  have hwork : workValue w (2 ^ n) f = (w <<< n) ||| f := by rw [workValue, checkWidth_two_pow]
  refine crc_eq (Nat.two_pow_pos n).ne' (by rw [checkWidth_two_pow]; exact Nat.mod_lt _ (Nat.two_pow_pos n)) ?_
  rw [hwork]
  nth_rw 1 [← shiftLeft_shiftRight_xor_mod (w <<< n ||| f) n]
  rw [Nat.xor_xor_cancel_right]
  exact multiple_two_pow n _

theorem crc_two_pow_of_lt {n f : Nat} (w : Nat) (hf : f < 2 ^ n) : crc w (2 ^ n) f = f := by
  rw [crc_two_pow, ← Nat.shiftLeft_add_eq_or_of_lt hf, Nat.shiftLeft_eq, Nat.mul_add_mod', Nat.mod_eq_of_lt hf]

/-- Settles O4: each law by the uniqueness of the remainder. -/
theorem crcLinearityLaws : Obligations.CrcLinearityLaws := by
  intro poly h
  have hp := Nat.one_le_iff_ne_zero.1 h
  exact ⟨fun a b f₁ f₂ h₁ h₂ => crc_xor a b hp h₁ h₂, crc_zero_word hp (Nat.two_pow_pos _),
    fun w f hf => crc_eq_xor_filler w hp hf, fun n w f hf => crc_two_pow_of_lt w hf⟩

/-- A code validates exactly when it is the one formed with filler 0. -/
theorem crc_eq_zero_iff {poly f : Nat} (w : Nat) (hp : poly ≠ 0) (hf : f < 2 ^ checkWidth poly) :
    crc w poly f = 0 ↔ f = crc w poly 0 := by
  rw [crc_eq_xor_filler w hp hf, Nat.xor_eq_zero_iff, eq_comm]

/-- Settles O5: with the filler added to the code of filler 0, the sum is 0 only for that code. -/
theorem checkCodeValidatesAndIsUnique : Obligations.CheckCodeValidatesAndIsUnique := by
  intro word poly h
  have hp := Nat.one_le_iff_ne_zero.1 h
  exact ⟨(crc_eq_zero_iff word hp (crc_lt word 0 hp)).2 rfl, fun f hf => crc_eq_zero_iff word hp hf⟩

/-! ### Degenerate inputs (rule R89) -/

theorem crc_congr {poly w w' f f' : Nat} (hp : poly ≠ 0) (h : workValue w poly f = workValue w' poly f') :
    crc w poly f = crc w' poly f' := by
  rw [crc_eq_divLoop w f hp, crc_eq_divLoop w' f' hp, h]

/-- Settles O7: a filler wider than n bits is part of the working value, which splits at bit n again. -/
theorem crcOnDegenerateInputs : Obligations.CrcOnDegenerateInputs := by
  refine ⟨fun w f => ?_, fun n w f _ => crc_two_pow n w f, fun w poly f h => ?_, by decide, by decide,
    fun poly f h hf => crc_zero_word (Nat.one_le_iff_ne_zero.1 h) hf⟩
  · exact (crc_two_pow 0 w f).trans (Nat.mod_one _)
  · refine crc_congr (Nat.one_le_iff_ne_zero.1 h) ?_
    have hlow := Nat.mod_lt f (Nat.two_pow_pos (checkWidth poly))
    refine Nat.eq_of_testBit_eq fun i => ?_
    change (w <<< checkWidth poly ||| f).testBit i = ((w <<< checkWidth poly ||| f) >>> checkWidth poly <<<
      checkWidth poly ||| f % 2 ^ checkWidth poly).testBit i
    rcases lt_or_ge i (checkWidth poly) with hi | hi
    · simp [Nat.testBit_or, Nat.testBit_shiftLeft, hi, Nat.not_le.2 hi]
    · simp [Nat.testBit_or, Nat.testBit_shiftLeft, Nat.testBit_shiftRight, hi, Nat.not_lt.2 hi]

/-- Settles O8, by running the passes. -/
theorem workedDivisionOfTheSpec : Obligations.WorkedDivisionOfTheSpec := by
  unfold Obligations.WorkedDivisionOfTheSpec
  decide

/-! ### The bit-serial form (rule R92) -/

/-- One bit of the working value into the shift register, and the polynomial out of it if its bit `n` is set. -/
def serialPass (poly r bit : Nat) : Nat :=
  if ((r <<< 1 ||| bit) >>> checkWidth poly) &&& 1 = 1 then (r <<< 1 ||| bit) ^^^ poly else r <<< 1 ||| bit

theorem serialLoop_succ (poly w i r : Nat) :
    serialLoop poly w (i + 1) r = serialLoop poly w i (serialPass poly r (w >>> i &&& 1)) := rfl

theorem shiftLeft_one_or_lt {r bit n : Nat} (hr : r < 2 ^ n) (hbit : bit < 2) : r <<< 1 ||| bit < 2 ^ (n + 1) := by
  refine Nat.or_lt_two_pow (Nat.shiftLeft_lt hr) (hbit.trans_le ?_)
  exact Nat.le_self_pow n.succ_ne_zero 2

/-- What is in the shift register after the pass still has at most `n` bits. -/
theorem serialPass_lt {poly r bit : Nat} (hp : poly ≠ 0) (hr : r < 2 ^ checkWidth poly) (hbit : bit < 2) :
    serialPass poly r bit < 2 ^ checkWidth poly := by
  have hlt := shiftLeft_one_or_lt hr hbit
  rw [serialPass, Nat.and_one_is_mod, Nat.shiftRight_eq_div_pow]
  generalize r <<< 1 ||| bit = x at hlt ⊢
  have hquot : x / 2 ^ checkWidth poly < 2 := Nat.div_lt_of_lt_mul (pow_succ 2 _ ▸ hlt)
  rw [Nat.mod_eq_of_lt hquot]
  split
  next hset =>
    have hlen : bitlen x = checkWidth poly + 1 :=
      le_antisymm (bitlen_le.2 hlt) (lt_bitlen.2 (Nat.div_pos_iff.1 (hset ▸ one_pos)).2)
    have hpoly : bitlen poly = checkWidth poly + 1 := (Nat.sub_add_cancel (bitlen_pos hp)).symm
    have hshort := bitlen_xor_lt (x := x) (y := poly) (by omega) (by omega)
    exact bitlen_le.1 (by omega)
  next hclear =>
    refine (Nat.div_eq_zero_iff_lt (Nat.two_pow_pos _)).1 ?_
    exact (Nat.le_one_iff_eq_zero_or_eq_one.1 (Nat.lt_succ_iff.1 hquot)).resolve_right hclear

/-- The pass adds the polynomial or nothing. -/
theorem multiple_serialPass_xor (poly r bit i : Nat) :
    Multiple poly (serialPass poly r bit <<< i ^^^ (r <<< 1 ||| bit) <<< i) := by
  rw [← Nat.shiftLeft_xor_distrib, serialPass]
  split
  · rw [Nat.xor_comm, Nat.xor_xor_cancel_left]
    exact multiple_shiftLeft poly i
  · rw [Nat.xor_self, Nat.zero_shiftLeft]
    exact .zero

/-- The bits below `i + 1` are bit `i` and the bits below it. -/
theorem mod_two_pow_succ_eq_xor (w i : Nat) : w % 2 ^ (i + 1) = (w >>> i &&& 1) <<< i ^^^ w % 2 ^ i := by
  have hhigh : (w % 2 ^ (i + 1)) >>> i = w >>> i &&& 1 := by
    rw [Nat.and_one_is_mod, Nat.shiftRight_eq_div_pow, Nat.shiftRight_eq_div_pow, pow_succ, Nat.mod_mul_right_div_self]
  have hlow : w % 2 ^ (i + 1) % 2 ^ i = w % 2 ^ i := Nat.mod_mod_of_dvd w (pow_dvd_pow 2 i.le_succ)
  rw [← hhigh, ← hlow, shiftLeft_shiftRight_xor_mod]

/-- The register fed with `i` more bits is a remainder of the value those bits stand below it in. -/
theorem serialLoop_isRemainder {poly : Nat} (hp : poly ≠ 0) (w i r : Nat) (hr : r < 2 ^ checkWidth poly) :
    serialLoop poly w i r < 2 ^ checkWidth poly ∧
      Multiple poly ((r <<< i ^^^ w % 2 ^ i) ^^^ serialLoop poly w i r) := by
  induction i generalizing r with
  | zero =>
    rw [serialLoop, Nat.shiftLeft_zero, pow_zero, Nat.mod_one, Nat.xor_zero, Nat.xor_self]
    exact ⟨hr, .zero⟩
  | succ i ih =>
    have hbit : w >>> i &&& 1 < 2 := Nat.and_one_is_mod _ ▸ Nat.mod_lt _ Nat.two_pos
    obtain ⟨hlt, hmul⟩ := ih (serialPass poly r (w >>> i &&& 1)) (serialPass_lt hp hr hbit)
    rw [serialLoop_succ]
    refine ⟨hlt, ?_⟩
    have hfed : r <<< (i + 1) ^^^ w % 2 ^ (i + 1) = (r <<< 1 ||| (w >>> i &&& 1)) <<< i ^^^ w % 2 ^ i := by
      rw [shiftLeft_or_eq_xor (n := 1) r hbit, Nat.shiftLeft_xor_distrib, ← Nat.shiftLeft_add, Nat.add_comm 1,
        Nat.xor_assoc, ← mod_two_pow_succ_eq_xor]
    have h := (multiple_serialPass_xor poly r (w >>> i &&& 1) i).xor hmul
    rw [hfed]
    rwa [← Nat.xor_assoc, xor_xor_xor_comm, Nat.xor_self, Nat.zero_xor] at h

theorem serialLoop_eq_crc {poly : Nat} (word filler i : Nat) (hp : poly ≠ 0)
    (hi : bitlen (workValue word poly filler) ≤ i) :
    serialLoop poly (workValue word poly filler) i 0 = crc word poly filler := by
  obtain ⟨hlt, hmul⟩ := serialLoop_isRemainder hp (workValue word poly filler) i 0 (Nat.two_pow_pos _)
  rw [Nat.zero_shiftLeft, Nat.zero_xor, Nat.mod_eq_of_lt (bitlen_le.1 hi)] at hmul
  exact (crc_eq hp hlt hmul).symm

/-- Settles O6: the shift register holds the remainder of the bits consumed so far. -/
theorem bitSerialFormComputesCrc : Obligations.BitSerialFormComputesCrc := by
  intro word poly filler h
  have hp := Nat.one_le_iff_ne_zero.1 h
  refine ⟨?_, fun extra => serialLoop_eq_crc word filler _ hp (Nat.le_add_right _ _)⟩
  rw [crcSerial, if_neg hp]
  exact serialLoop_eq_crc word filler _ hp le_rfl

end Sys2Proof.Machine
end

section
/-! Valid frames (41_regcodec.md rule R105, 20_memory.md rule R42): validity as a linear condition on the frame's bits,
and the statements O14 to O17. -/

namespace Sys2Proof.Machine

theorem toNat_ne_zero_of_getLsbD_three {poly : BitVec 4} (h : poly.getLsbD 3 = true) : poly.toNat ≠ 0 := by
  have := eight_le_toNat_of_getLsbD_three h
  omega

/-- A 3-bit check code is a filler below 2^n. -/
theorem toNat_check_lt {poly : BitVec 4} (c : BitVec 3) (h : poly.getLsbD 3 = true) :
    c.toNat < 2 ^ checkWidth poly.toNat :=
  (checkWidth_of_getLsbD_three h).symm ▸ c.isLt

/-- A frame is valid exactly when its check code is the one formed over its payload with filler 0. -/
theorem frameValid_iff_frameCheck {poly : BitVec 4} (f : Frame) (h : poly.getLsbD 3 = true) :
    frameValid poly f = true ↔ (frameCheck f).toNat = crc (canon (framePayload f)).toNat poly.toNat 0 := by
  rw [frameValid_iff_crc_eq_zero f h]
  exact crc_eq_zero_iff _ (toNat_ne_zero_of_getLsbD_three h) (toNat_check_lt _ h)

/-- The canonical word of a frame's payload is read off the frame (30_encoding.md section 1). -/
theorem canon_framePayload (f : Frame) : canon (framePayload f) = (f &&& 0xFF00#16) ||| ((f >>> 5) &&& 0x7#16) := by
  refine BitVec.eq_of_getLsbD_eq fun i hi => ?_
  rw [canon_eq_append, framePayload, BitVec.getLsbD_append, BitVec.getLsbD_append]
  interval_cases i <;> simp

/-- Settles O14: the remainder with the received code as filler is that code added to the one formed. -/
theorem frameValidIffItsCheckCodeIsItsPayloads : Obligations.FrameValidIffItsCheckCodeIsItsPayloads := by
  intro poly f h
  rw [← toNat_frameCheck]
  exact ⟨frameValid_iff_crc_eq_zero f h, frameValid_iff_frameCheck f h, canon_framePayload f⟩

/-! ### Frames that are sent (20_memory.md rule R42, 30_encoding.md rule R51) -/

theorem frameValid_assemble_iff {poly : BitVec 4} (p : Payload) (m : BitVec 2) (c : BitVec 3)
    (h : poly.getLsbD 3 = true) :
    frameValid poly (assemble p m c) = true ↔ c.toNat = crc (canon p).toNat poly.toNat 0 := by
  rw [frameValid_iff_frameCheck _ h, frameCheck_assemble, framePayload_assemble]

theorem frameValid_readFrame {poly : BitVec 4} (p : Payload) (x : BitVec 2) (h : poly.getLsbD 3 = true) :
    frameValid poly (readFrame poly p x) = true :=
  (frameValid_assemble_iff p x _ h).2 (toNat_crcDiv _ _ h)

@[simp] theorem framePayload_readFrame (poly : BitVec 4) (p : Payload) (x : BitVec 2) :
    framePayload (readFrame poly p x) = p :=
  framePayload_assemble p x _

/-- Settles O16: the reference target forms the code of the payload it sends. -/
theorem referenceFrameIsValid : Obligations.ReferenceFrameIsValid := fun poly p x h =>
  ⟨frameValid_readFrame p x h, framePayload_readFrame poly p x, extractLsb'_marker_assemble p x _⟩

/-- The write-side word is the address's part and the canonical word, in bits of their own. -/
theorem toNat_wrword (a : Addr) (v : Payload) : (wrword a v).toNat = a.toNat <<< 16 ^^^ (canon v).toNat := by
  rw [wrword_eq_append, BitVec.toNat_append, shiftLeft_or_eq_xor _ (canon v).isLt]

/-- Settles O17: by linearity the code formed over address and payload exceeds the payload's by the address's own. -/
theorem writtenFrameIsValidToReadExactlyWhenTheAddressVanishes :
    Obligations.WrittenFrameIsValidToReadExactlyWhenTheAddressVanishes := by
  intro poly a v h
  have hlinear := crc_xor (poly := poly.toNat) (a.toNat <<< 16) (canon v).toNat (toNat_ne_zero_of_getLsbD_three h)
    (Nat.two_pow_pos _) (Nat.two_pow_pos _)
  rw [Nat.xor_self, ← toNat_wrword] at hlinear
  rw [writeFrame, frameValid_assemble_iff v marker _ h, writeCheck, toNat_crcDiv _ _ h, BitVec.toNat_ofNat,
    Nat.zero_mod, hlinear]
  nth_rw 2 [← Nat.zero_xor (crc (canon v).toNat poly.toNat 0)]
  exact Nat.xor_left_inj

/-! ### Changed frames -/

theorem canon_xor (p q : Payload) : canon (p ^^^ q) = canon p ^^^ canon q := by
  rw [canon_eq_append, canon_eq_append, canon_eq_append, BitVec.extractLsb'_xor, BitVec.extractLsb'_xor,
    BitVec.xor_append, BitVec.xor_append, BitVec.xor_self]

/-- A change of a valid frame goes undetected exactly when it is a valid frame itself. -/
theorem frameValid_xor {poly : BitVec 4} {f : Frame} (e : Frame) (h : poly.getLsbD 3 = true)
    (hf : frameValid poly f = true) : frameValid poly (f ^^^ e) = frameValid poly e := by
  rw [frameValid_iff_crc_eq_zero f h] at hf
  rw [Bool.eq_iff_iff, frameValid_iff_crc_eq_zero _ h, frameValid_iff_crc_eq_zero _ h, framePayload, frameCheck,
    BitVec.extractLsb'_xor, BitVec.extractLsb'_xor, canon_xor, BitVec.toNat_xor, BitVec.toNat_xor,
    crc_xor _ _ (toNat_ne_zero_of_getLsbD_three h) (toNat_check_lt _ h) (toNat_check_lt _ h)]
  change crc (canon (framePayload f)).toNat poly.toNat (frameCheck f).toNat ^^^ _ = 0 ↔ _
  rw [hf, Nat.zero_xor]
  rfl

/-- None of the 14 single bits that take part in the check is a valid frame for the generator 0b1011. -/
theorem frameValid_singleBit :
    ∀ i : Fin 16, i ≠ 3 → i ≠ 4 → frameValid 0b1011#4 (1#16 <<< i.val) = false := by
  decide

/-- Settles O15: by linearity the changed bit alone would have to be a valid frame, and no single bit is. -/
theorem singleBitErrorsAreDetected : Obligations.SingleBitErrorsAreDetected := fun _ i h3 h4 hf =>
  (frameValid_xor _ (by decide) hf).trans (frameValid_singleBit i h3 h4)

end Sys2Proof.Machine
end

section
/-! The Register Codec (41_regcodec.md rules R100 to R103): WRREG on a bus that answers anything, the operations that
read one register and go on, all four operations on the reference target of 20_memory.md rule R42, and the statements
O19, O20, O22, O23, O37 and O38. -/

namespace Sys2Proof.Machine

/-! ### WRREG on a bus that answers anything (rule R101) -/

theorem eq_writeFrame_of_toNat {poly : BitVec 4} {a : Addr} {v : Payload} {f : Frame} (h : poly.getLsbD 3 = true)
    (hf : f.toNat = (v.toNat <<< 5) ||| 0x18 ||| crc (wrword a v).toNat poly.toNat 0) : f = writeFrame poly a v :=
  BitVec.eq_of_toNat_eq (hf.trans (toNat_writeFrame a v h).symm)

@[simp] theorem framePayload_writeFrame (poly : BitVec 4) (a : Addr) (v : Payload) :
    framePayload (writeFrame poly a v) = v :=
  framePayload_assemble v marker _

theorem State.writeRegister_of_fault {s : State} {c : Cause} (a : Addr) (v : Payload) (h : s.reply.fault = some c) :
    s.writeRegister a v = .err (.transport c)
      (((s.turn.setFrm (writeFrame s.cfg.crcPoly a v)).setReg a (s.reply.stored.getD (s.turn.reg a))).record
        (.wrFault a (frameBytes (writeFrame s.cfg.crcPoly a v)).1
          (frameBytes (writeFrame s.cfg.crcPoly a v)).2 c)) := by
  rw [State.writeRegister, State.memWrite_fault a _ h, frameOfBytes_frameBytes]

theorem State.writeRegister_of_completes {s : State} (a : Addr) (v : Payload) (h : s.reply.fault = none) :
    s.writeRegister a v = .ok ()
      (((s.turn.setFrm (writeFrame s.cfg.crcPoly a v)).setReg a (s.reply.stored.getD v)).record
        (writeEvent a (writeFrame s.cfg.crcPoly a v))) := by
  rw [State.writeRegister, State.memWrite_completes a _ h, frameOfBytes_frameBytes, framePayload_writeFrame]
  rfl

/-- Settles O19, by the case of a failed and of a completed transaction, each an equation for the pseudocode of
WRREG. -/
theorem writeRegisterOutcome : Obligations.WriteRegisterOutcome := by
  intro s a v f hpoly hf
  obtain rfl := eq_writeFrame_of_toNat hpoly hf
  refine ⟨fun c hc => ?_, fun hc => ?_⟩
  · rw [exec_wrreg, State.writeRegister_of_fault (s := s.accept) a v hc]
    rfl
  · rw [exec_wrreg, State.writeRegister_of_completes (s := s.accept) a v hc]
    rfl

/-! ### An operation that begins with one read, beside RDREG (rules R102 and R150) -/

theorem rdreg_readsThen (a : Addr) : ReadsThen (.rdreg a) a fun p t => .ok ⟨some (p.setWidth 16), none⟩ t :=
  fun _ => rfl

theorem rdmsk_readsThen (a : Addr) {m : Payload} (hm : m ≠ 0#11) :
    ReadsThen (.rdmsk a m) a fun p t => .ok ⟨some ((selectField p m).setWidth 16), none⟩ t := by
  intro s
  rw [exec, execRdmsk]
  simp only [if_neg hm, State.readMasked_andThen]

theorem exec_rdmsk_zero (a : Addr) (s : State) :
    exec (.rdmsk a 0#11) s = .next (s.outcome s.bus s.regs [] 5#3 none none none) :=
  congrArg Host.Outcome.next (s.raiseError_accept .illegal)

/-- What RDREG ends in decides what every operation that begins with its read ends in: the same error in the same
state, or its own pseudocode on the payload read. -/
theorem ReadsThen.cases_rdreg {i : Instr} {a : Addr} {k : Payload → State → Res Response} {s u : State}
    (hi : ReadsThen i a k) (hu : exec (.rdreg a) s = .next u) :
    (u.status ≠ some 0#3 ∧ exec i s = .next u) ∨
    ∃ p t, u = t.respond ⟨some (p.setWidth 16), none⟩ ∧ exec i s = .next (k p t).finish := by
  rw [exec_rdreg] at hu
  obtain rfl := Host.Outcome.next.inj hu
  rw [hi, perform]
  cases s.accept.readRegister a with
  | err e t => exact .inl ⟨t.raiseError_status_ne_ok e, rfl⟩
  | ok p t => exact .inr ⟨p, t, rfl, rfl⟩

/-- The search from bit `i` ends at the lowest set bit. -/
theorem lowestSetFrom_eq {m : Payload} {k : Nat} (hk : m.getLsbD k = true) (hlow : ∀ j, j < k → m.getLsbD j = false)
    (fuel i : Nat) (hi : i ≤ k) (hfuel : k < i + fuel) : lowestSetFrom m fuel i = k := by
  induction fuel generalizing i with
  | zero => omega
  | succ fuel ih =>
    rw [lowestSetFrom]
    rcases hi.eq_or_lt with rfl | hlt
    · rw [if_pos hk]
    · rw [hlow i hlt, if_neg Bool.false_ne_true]
      exact ih (i + 1) hlt (by omega)

theorem tz_eq {m : Payload} {k : Nat} (hk : m.getLsbD k = true) (hlow : ∀ j, j < k → m.getLsbD j = false) :
    tz m = k :=
  lowestSetFrom_eq hk hlow 11 0 (Nat.zero_le k) ((BitVec.lt_of_getLsbD hk).trans_eq (Nat.zero_add 11).symm)

theorem selectField_eq {m : Payload} {k : Nat} (p : Payload) (hk : m.getLsbD k = true)
    (hlow : ∀ j, j < k → m.getLsbD j = false) : selectField p m = (p &&& m) >>> k := by
  rw [selectField, tz_eq hk hlow]

theorem ne_zero_of_getLsbD {m : Payload} {k : Nat} (hk : m.getLsbD k = true) : m ≠ 0#11 := by
  rintro rfl
  simp at hk

/-- Settles O20: RDMSK runs the read of RDREG, so it ends as that does or goes on with its payload. -/
theorem maskedReadIsReadThenSelect : Obligations.MaskedReadIsReadThenSelect := by
  intro s u a m hu
  refine ⟨fun hm hs => ?_, fun p k hk hlow hs hp => ?_, fun hm => hm ▸ exec_rdmsk_zero a s⟩
  · obtain ⟨-, h⟩ | ⟨q, t, rfl, -⟩ := (rdmsk_readsThen a hm).cases_rdreg hu
    · exact h
    · exact absurd (State.respond_status ..) hs
  · obtain ⟨hne, -⟩ | ⟨q, t, rfl, h⟩ := (rdmsk_readsThen a (ne_zero_of_getLsbD hk)).cases_rdreg hu
    · exact absurd hs hne
    · obtain rfl : q = p := setWidth_payload_injective (Option.some.inj hp)
      rw [h, selectField_eq q hk hlow]
      rfl

/-! ### The operations that only read (rule R150) -/

/-- Every operation that only reads begins with one read, and what it does after that leaves the state alone. -/
theorem readers_readsThen {a : Addr} {m : Payload} (hm : m ≠ 0#11) {g : Instr × Addr} (hg : g ∈ readers a m) :
    ∃ k, ReadsThen g.1 g.2 k ∧ ∀ p t, (k p t).state = t := by
  simp only [readers, List.mem_cons, List.mem_append, List.mem_map] at hg
  obtain rfl | rfl | rfl | ⟨g, hg, rfl⟩ | ⟨g, hg, rfl⟩ := hg
  · exact ⟨_, rdreg_readsThen a, fun _ _ => rfl⟩
  · exact ⟨_, rdmsk_readsThen a hm, fun _ _ => rfl⟩
  · exact ⟨_, getpGain_readsThen, fun p t => (answers_answerGain _).state_eq t⟩
  · exact ⟨_, GetterRow.readsThen hg, fun _ _ => rfl⟩
  · exact ⟨_, PhysicalRow.readsThen hg, fun _ _ => rfl⟩

/-- Settles O37: whatever follows the read is not reached. -/
theorem readersPassOnTheErrorsOfTheirRead : Obligations.ReadersPassOnTheErrorsOfTheirRead := by
  intro s u a m hm g hg hu hs
  obtain ⟨k, hi, -⟩ := readers_readsThen hm hg
  obtain ⟨-, h⟩ | ⟨p, t, rfl, -⟩ := hi.cases_rdreg hu
  · exact h
  · exact absurd (State.respond_status ..) hs

theorem Res.finish_regs (r : Res Response) : r.finish.regs = r.state.regs := by
  cases r <;> rfl

theorem Res.state_andThen {α β : Type} (r : Res α) {k : α → State → Res β} (hk : ∀ x t, (k x t).state = t) :
    (r.andThen k).state = r.state := by
  cases r with
  | ok x t => exact hk x t
  | err e t => rfl

/-- RDREG's pseudocode uses one reply, adds one event of a read, and leaves REG to the other masters. -/
theorem State.readRegister_state (s : State) (a : Addr) :
    (s.readRegister a).state.bus = s.turn.bus ∧ (s.readRegister a).state.regs = s.turn.regs ∧
      ∃ e, (s.readRegister a).state.trace = s.trace ++ [e] ∧ ((∃ b0 b1, e = .rd a b0 b1) ∨ ∃ c, e = .rdFault a c) := by
  rcases s.readRegister_cases a with ⟨c, _, h⟩ | ⟨_, _, h⟩ | ⟨_, _, h⟩ <;> rw [h]
  · exact ⟨rfl, rfl, _, rfl, .inr ⟨c, rfl⟩⟩
  all_goals exact ⟨rfl, rfl, _, rfl, .inl ⟨_, _, rfl⟩⟩

/-- Settles O38: what follows the read leaves the state alone, so the end state is that of the read. -/
theorem readersPerformExactlyOneRead : Obligations.ReadersPerformExactlyOneRead := by
  intro s t a m hm g hg h
  obtain ⟨k, hi, hk⟩ := readers_readsThen hm hg
  obtain rfl := perform_next ((hi s).symm.trans h)
  rw [Res.finish_bus, Res.finish_regs, Res.finish_trace, Res.state_andThen _ hk]
  exact s.accept.readRegister_state g.2

/-! ### Pseudocode on the reference target (20_memory.md rule R42) -/

/-- From `s` to `t` the next `n` replies were used up, REG became `regs` and `es` was added to the trace; the
configuration, the bus beyond and the host's side stayed. -/
structure State.Reaches (s t : State) (n : Nat) (regs : Memory) (es : List Event) : Prop where
  cfg : t.cfg = s.cfg
  bus : t.bus = s.bus.drop n
  busRest : t.busRest = s.busRest
  cmds : t.cmds = s.cmds
  cmdIdx : t.cmdIdx = s.cmdIdx
  stopped : t.stopped = s.stopped
  regs : t.regs = regs
  trace : t.trace = s.trace ++ es

namespace State.Reaches

variable {s t u : State} {n m : Nat} {regs regs' : Memory} {es fs : List Event}

theorem trans (h : s.Reaches t n regs es) (k : t.Reaches u m regs' fs) : s.Reaches u (n + m) regs' (es ++ fs) where
  cfg := k.cfg.trans h.cfg
  bus := by rw [k.bus, h.bus, List.drop_drop]
  busRest := k.busRest.trans h.busRest
  cmds := k.cmds.trans h.cmds
  cmdIdx := k.cmdIdx.trans h.cmdIdx
  stopped := k.stopped.trans h.stopped
  regs := k.regs
  trace := by rw [k.trace, h.trace, List.append_assoc]

theorem delay (h : s.Reaches t n regs es) : s.Reaches t.delay n regs (es ++ [.dly]) where
  __ := h
  trace := by rw [State.delay_trace, h.trace, List.append_assoc]

theorem of_setTmp {p : Payload} (h : (s.setTmp p).Reaches t n regs es) : s.Reaches t n regs es where
  __ := h

theorem replyAt (h : s.Reaches t n regs es) (k : Nat) : t.replyAt k = s.replyAt (n + k) := by
  rw [State.replyAt, State.replyAt, h.bus, h.busRest, List.getElem?_drop]

theorem reg (h : s.Reaches t n regs es) (a : Addr) : t.reg a = Memory.read regs a.toNat := by
  rw [State.reg, h.regs]

/-- An operation that completes has the state reached as its outcome. -/
theorem respond (h : s.accept.Reaches t n regs es) (r : Response) :
    t.respond r = s.outcome (s.bus.drop n) regs es 0#3 r.result r.phys none := by
  obtain ⟨hcfg, hbus, hrest, hcmds, hidx, hstop, hregs, htrace⟩ := h
  cases t
  cases hcfg; cases hbus; cases hrest; cases hcmds; cases hidx; cases hstop; cases hregs; cases htrace
  rfl

end State.Reaches

theorem State.ReferenceBus.replyAt {s : State} (h : s.ReferenceBus) (k : Nat) : (s.replyAt k).isReference := by
  obtain ⟨hbus, hrest⟩ := h
  rw [State.replyAt]
  cases hk : s.bus[k]? with
  | none => exact hrest
  | some r => exact hbus r (List.mem_of_getElem? hk)

/-- What another master stores before a transaction is in REG when its turn comes. -/
theorem State.turn_reg_of_others {s : State} (a : Addr) (h : s.reply.others = []) : s.turn.reg a = s.reg a := by
  rw [State.reg, State.turn_regs, h]
  rfl

theorem State.incoming_of_reference {s : State} (a : Addr) (h : s.reply.isReference) :
    s.incoming a = frameBytes (readFrame s.cfg.crcPoly (s.reg a) s.reply.marker) := by
  obtain ⟨hothers, hbytes, -, -⟩ := h
  rw [State.incoming, hbytes, State.turn_reg_of_others a hothers]
  rfl

/-- RDREG's pseudocode on the reference target reads the register, with a valid frame. -/
theorem State.readRegister_of_reference {s : State} (a : Addr) (hpoly : s.FourBitPoly) (h : (s.replyAt 0).isReference) :
    ∃ t, s.readRegister a = .ok (s.reg a) t ∧
      s.Reaches t 1 s.regs [readEvent a (readFrame s.cfg.crcPoly (s.reg a) (s.replyAt 0).marker)] := by
  rw [← s.reply_eq_replyAt] at h ⊢
  have hin := State.incoming_of_reference a h
  obtain ⟨hothers, -, hfault, -⟩ := h
  have hvalid : frameValid s.cfg.crcPoly (frameOfBytes (s.incoming a)) = true := by
    rw [hin, frameOfBytes_frameBytes]
    exact frameValid_readFrame _ _ hpoly
  have hread := State.readRegister_of_valid a hfault hvalid
  rw [hin, frameOfBytes_frameBytes, framePayload_readFrame] at hread
  refine ⟨_, hread, rfl, List.drop_one.symm, rfl, rfl, rfl, rfl, ?_, rfl⟩
  rw [State.record_regs, State.setFrm_regs, State.turn_regs, hothers]
  rfl

/-- WRREG's pseudocode when the write completes and stores what is sent: other masters' stores land before it. -/
theorem State.writeRegister_of_stored {s : State} (a : Addr) (v : Payload) (hfault : (s.replyAt 0).fault = none)
    (hstored : (s.replyAt 0).stored = none) :
    ∃ t, s.writeRegister a v = .ok () t ∧
      s.Reaches t 1 (Memory.write (Memory.land s.regs (s.replyAt 0).others) a.toNat v)
        [writeEvent a (writeFrame s.cfg.crcPoly a v)] := by
  rw [← s.reply_eq_replyAt] at hfault hstored ⊢
  refine ⟨_, State.writeRegister_of_completes a v hfault, rfl, List.drop_one.symm, rfl, rfl, rfl, rfl, ?_, rfl⟩
  rw [hstored]
  rfl

/-- WRMSK's pseudocode with its read answered by the reference target, and its write completed as sent. -/
theorem State.writeMasked_of_stored {s : State} (a : Addr) (v m : Payload) (hpoly : s.FourBitPoly)
    (h₀ : (s.replyAt 0).isReference) (hfault : (s.replyAt 1).fault = none) (hstored : (s.replyAt 1).stored = none) :
    ∃ t, s.writeMasked a v m = .ok () t ∧
      s.Reaches t 2
        (Memory.write (Memory.land s.regs (s.replyAt 1).others) a.toNat ((s.reg a &&& ~~~m) ||| (v &&& m)))
        [readEvent a (readFrame s.cfg.crcPoly (s.reg a) (s.replyAt 0).marker),
          writeEvent a (writeFrame s.cfg.crcPoly a ((s.reg a &&& ~~~m) ||| (v &&& m)))] := by
  obtain ⟨t, hread, ht⟩ := State.readRegister_of_reference a hpoly h₀
  have hreply : (t.setTmp (s.reg a)).replyAt 0 = s.replyAt 1 := ht.replyAt 0
  obtain ⟨u, hwrite, hu⟩ := State.writeRegister_of_stored (s := t.setTmp (s.reg a)) a
    ((s.reg a &&& ~~~m) ||| (v &&& m)) (hreply ▸ hfault) (hreply ▸ hstored)
  rw [hreply, State.setTmp_regs, State.setTmp_cfg, ht.regs, ht.cfg] at hu
  exact ⟨u, by rw [State.writeMasked_of_ok v m hread, hwrite], ht.trans hu.of_setTmp⟩

/-- As `State.writeMasked_of_stored`, with no other master's store before the write. -/
theorem State.writeMasked_of_reference {s : State} (a : Addr) (v m : Payload) (hpoly : s.FourBitPoly)
    (h₀ : (s.replyAt 0).isReference) (h₁ : (s.replyAt 1).isReference) :
    ∃ t, s.writeMasked a v m = .ok () t ∧
      s.Reaches t 2 (Memory.write s.regs a.toNat ((s.reg a &&& ~~~m) ||| (v &&& m)))
        [readEvent a (readFrame s.cfg.crcPoly (s.reg a) (s.replyAt 0).marker),
          writeEvent a (writeFrame s.cfg.crcPoly a ((s.reg a &&& ~~~m) ||| (v &&& m)))] := by
  obtain ⟨hothers, -, hfault, hstored⟩ := h₁
  have h := State.writeMasked_of_stored a v m hpoly h₀ hfault hstored
  rwa [hothers] at h

/-! ### Operations on the reference target -/

/-- An operation that begins with one read goes on with the register's payload. -/
theorem ReadsThen.exec_of_reference {i : Instr} {a : Addr} {k : Payload → State → Res Response} {s : State}
    (hi : ReadsThen i a k) (hpoly : s.FourBitPoly) (h : (s.replyAt 0).isReference) :
    ∃ t, exec i s = .next (k (s.reg a) t).finish ∧
      s.accept.Reaches t 1 s.regs [readEvent a (readFrame s.cfg.crcPoly (s.reg a) (s.replyAt 0).marker)] := by
  obtain ⟨t, hread, ht⟩ := State.readRegister_of_reference (s := s.accept) a hpoly h
  exact ⟨t, by rw [hi, perform, hread]; rfl, ht⟩

theorem ReadsThen.exec_result_of_reference {i : Instr} {a : Addr} {result : Payload → Word16} {s : State}
    (hi : ReadsThen i a fun p t => .ok ⟨some (result p), none⟩ t) (hpoly : s.FourBitPoly)
    (h : (s.replyAt 0).isReference) :
    exec i s = .next (s.outcome (s.bus.drop 1) s.regs
      [readEvent a (readFrame s.cfg.crcPoly (s.reg a) (s.replyAt 0).marker)] 0#3 (some (result (s.reg a)))
      none none) := by
  obtain ⟨t, hexec, ht⟩ := hi.exec_of_reference hpoly h
  rw [hexec, Res.finish_ok, ht.respond]

/-- Settles O22: each operation by what its pseudocode reaches on the reference target. -/
theorem registerCodecOnTheReferenceTarget : Obligations.RegisterCodecOnTheReferenceTarget := by
  intro s a v m hbus hpoly
  have h₀ := hbus.replyAt 0
  refine ⟨(rdreg_readsThen a).exec_result_of_reference hpoly h₀, ?_, fun k hk hlow => ?_, ?_⟩
  · obtain ⟨hothers, -, hfault, hstored⟩ := h₀
    obtain ⟨t, hwrite, ht⟩ := State.writeRegister_of_stored (s := s.accept) a v hfault hstored
    rw [exec_wrreg, hwrite, Res.finishWrite_ok, ht.respond]
    change Host.Outcome.next (s.outcome _ (Memory.write (Memory.land s.regs (s.replyAt 0).others) _ _) _ _ _ _ _) = _
    rw [hothers]
    rfl
  · rw [← selectField_eq (s.reg a) hk hlow]
    exact (rdmsk_readsThen a (ne_zero_of_getLsbD hk)).exec_result_of_reference hpoly h₀
  · obtain ⟨t, hwrite, ht⟩ := State.writeMasked_of_reference (s := s.accept) a v m hpoly h₀ (hbus.replyAt 1)
    rw [exec_wrmsk, hwrite, Res.finishWrite_ok, ht.respond]
    rfl

/-- Settles O23: the other master's store lands after the read half, and the write half overwrites it. -/
theorem maskedWriteOverwritesAStoreBetweenItsHalves : Obligations.MaskedWriteOverwritesAStoreBetweenItsHalves := by
  intro s t a v m q r₀ r₁ rest hpoly hbus h₀ h₁ h
  have hreply₀ : s.replyAt 0 = r₀ := by rw [State.replyAt, hbus]; rfl
  have hreply₁ : s.replyAt 1 = { r₁ with others := [(a, q)] } := by rw [State.replyAt, hbus]; rfl
  obtain ⟨-, -, hfault, hstored⟩ := h₁
  obtain ⟨u, hwrite, hu⟩ := State.writeMasked_of_stored (s := s.accept) a v m hpoly (hreply₀ ▸ h₀)
    (by change (s.replyAt 1).fault = none; rw [hreply₁]; exact hfault)
    (by change (s.replyAt 1).stored = none; rw [hreply₁]; exact hstored)
  rw [exec_wrmsk, hwrite, Res.finishWrite_ok] at h
  obtain rfl := Host.Outcome.next.inj h
  have hregs : (u.respond .silent).regs = Memory.write (Memory.write s.regs a.toNat q) a.toNat
      ((s.reg a &&& ~~~m) ||| (v &&& m)) := by
    have hothers : (s.accept.replyAt 1).others = [(a, q)] := congrArg Reply.others hreply₁
    rw [State.respond_regs, hu.regs, hothers]
    rfl
  refine ⟨u.respond_status _, ?_, fun b hb => ?_⟩
  · rw [State.reg, hregs, Memory.read_write_same]
  · have hne : b.toNat ≠ a.toNat := mt BitVec.eq_of_toNat_eq hb
    rw [State.reg, hregs, Memory.read_write_ne _ _ hne, Memory.read_write_ne _ _ hne]
    rfl

end Sys2Proof.Machine
end

section
/-! The setters on the reference target and on a bus that fails once (42_field_setters.md, 60_exceptions.md section 3):
the paired write, how far it gets when a transaction fails, what a getter returns after a setter, and the statements
O28 to O32. -/

namespace Sys2Proof.Machine

/-! ### The paired write on the reference target (42_field_setters.md rule R120) -/

theorem State.FourBitPoly.of_cfg_eq {s t : State} (h : s.FourBitPoly) (hcfg : t.cfg = s.cfg) : t.FourBitPoly := by
  rw [State.FourBitPoly, hcfg]
  exact h

theorem Field.shadow_ne_primary (f : Field) : f.shadow ≠ f.primary := by
  cases f <;> decide

theorem SetterRow.shadow_ne_primary {v sign : Word16} {row : SetterRow} (h : row ∈ setterRows v sign) :
    row.shadow ≠ row.primary := by
  obtain ⟨f, legal, fv, d⟩ := SetterRow.exists_describes h
  rw [← d.shadow_eq, ← d.primary_eq]
  exact f.shadow_ne_primary

/-- The payload a masked write of the row leaves where `old` stood. -/
def SetterRow.merged (row : SetterRow) (old : Payload) : Payload := (old &&& ~~~row.mask) ||| (row.val &&& row.mask)

/-- The shadow's half of the paired write, with its delay. -/
theorem SetterRow.shadowWrite_of_reference {s : State} (row : SetterRow) (hpoly : s.FourBitPoly)
    (h₀ : (s.replyAt 0).isReference) (h₁ : (s.replyAt 1).isReference) :
    ∃ t, s.writeMasked row.shadow row.val row.mask = .ok () t ∧
      s.Reaches t.delay 2 (Memory.write s.regs row.shadow.toNat (row.merged (s.reg row.shadow)))
        [readEvent row.shadow (readFrame s.cfg.crcPoly (s.reg row.shadow) (s.replyAt 0).marker),
          writeEvent row.shadow (writeFrame s.cfg.crcPoly row.shadow (row.merged (s.reg row.shadow))), .dly] := by
  obtain ⟨t, hwrite, ht⟩ := State.writeMasked_of_reference row.shadow row.val row.mask hpoly h₀ h₁
  exact ⟨t, hwrite, ht.delay⟩

theorem SetterRow.write_of_shadowWrite {s t : State} {row : SetterRow}
    (h : s.writeMasked row.shadow row.val row.mask = .ok () t) :
    row.write s = (t.delay.writeMasked row.primary row.val row.mask).andThen fun _ u => .ok () u.delay := by
  rw [SetterRow.write, h, Res.andThen_ok]

/-- After the shadow's half the primary still holds what it held. -/
theorem State.Reaches.reg_primary {s t : State} {n : Nat} {es : List Event} {row : SetterRow} {x : Payload}
    (hne : row.shadow ≠ row.primary) (h : s.Reaches t n (Memory.write s.regs row.shadow.toNat x) es) :
    t.reg row.primary = s.reg row.primary :=
  (h.reg _).trans (Memory.read_write_ne _ _ (mt BitVec.eq_of_toNat_eq hne.symm))

theorem SetterRow.write_of_reference {s : State} {row : SetterRow} (hne : row.shadow ≠ row.primary)
    (hpoly : s.FourBitPoly) (h : ∀ k, k < 4 → (s.replyAt k).isReference) :
    ∃ t, row.write s = .ok () t ∧
      s.Reaches t 4
        (Memory.write (Memory.write s.regs row.shadow.toNat (row.merged (s.reg row.shadow)))
          row.primary.toNat (row.merged (s.reg row.primary)))
        [readEvent row.shadow (readFrame s.cfg.crcPoly (s.reg row.shadow) (s.replyAt 0).marker),
          writeEvent row.shadow (writeFrame s.cfg.crcPoly row.shadow (row.merged (s.reg row.shadow))), .dly,
          readEvent row.primary (readFrame s.cfg.crcPoly (s.reg row.primary) (s.replyAt 2).marker),
          writeEvent row.primary (writeFrame s.cfg.crcPoly row.primary (row.merged (s.reg row.primary))), .dly] := by
  obtain ⟨t, hshadow, ht⟩ := row.shadowWrite_of_reference hpoly (h 0 (by decide)) (h 1 (by decide))
  obtain ⟨u, hprimary, hu⟩ := State.writeMasked_of_reference (s := t.delay) row.primary row.val row.mask
    (State.FourBitPoly.of_cfg_eq hpoly ht.cfg) (ht.replyAt 0 ▸ h 2 (by decide)) (ht.replyAt 1 ▸ h 3 (by decide))
  rw [ht.replyAt 0, ht.reg_primary hne, ht.cfg, ht.regs] at hu
  exact ⟨u.delay, by rw [SetterRow.write_of_shadowWrite hshadow, hprimary, Res.andThen_ok], ht.trans hu.delay⟩

/-- Settles O28, by what its two WRMSKs and delays reach on the reference target. -/
theorem setterOnTheReferenceTarget : Obligations.SetterOnTheReferenceTarget := by
  intro s v sign row hrow hl hbus hpoly
  obtain ⟨t, hwrite, ht⟩ := SetterRow.write_of_reference (s := s.accept) (SetterRow.shadow_ne_primary hrow) hpoly
    fun k _ => hbus.replyAt k
  rw [exec_setter_of_legal s hrow hl, hwrite, Res.finishWrite_ok, ht.respond]
  rfl

/-! ### A masked write that fails (60_exceptions.md section 3) -/

/-- WRMSK's pseudocode at `a` ends with `e` and no delay, having changed no register but `a`, and not that one if its
read failed already. -/
def State.MaskedWriteFails (s : State) (a : Addr) (v m : Payload) (e : Raise) (readFailed : Prop) : Prop :=
  ∃ t es, s.writeMasked a v m = .err e t ∧ t.trace = s.trace ++ es ∧ es.count .dly = 0 ∧
    (∀ b, b ≠ a → t.reg b = s.reg b) ∧ (readFailed → t.reg a = s.reg a)

theorem State.maskedWriteFails_of_readFault {s : State} {c : Cause} (a : Addr) (v m : Payload)
    (hfault : (s.replyAt 0).fault = some c) (hothers : (s.replyAt 0).others = []) :
    s.MaskedWriteFails a v m (.transport c) True := by
  rw [← s.reply_eq_replyAt] at hfault hothers
  exact ⟨_, [.rdFault a c], State.writeMasked_of_err v m (State.readRegister_of_fault a hfault), rfl, rfl,
    fun b _ => State.turn_reg_of_others b hothers, fun _ => State.turn_reg_of_others a hothers⟩

theorem State.maskedWriteFails_of_invalid {s : State} {b0 b1 : Byte} (a : Addr) (v m : Payload)
    (hpoly : s.FourBitPoly) (hfault : (s.replyAt 0).fault = none) (hothers : (s.replyAt 0).others = [])
    (hbytes : (s.replyAt 0).bytes = some (b0, b1)) (hr : s.remainder (b0 ++ b1) ≠ 0) :
    s.MaskedWriteFails a v m (.integrity a (b0 ++ b1)) True := by
  rw [← s.reply_eq_replyAt] at hfault hothers hbytes
  have hin : s.incoming a = (b0, b1) := by rw [State.incoming, hbytes, Option.getD_some]
  have hread := State.readRegister_of_invalid a hfault
    (hin ▸ mt (State.frameValid_iff_remainder_eq_zero (b0 ++ b1) hpoly).1 hr)
  rw [hin] at hread
  exact ⟨_, [.rd a b0 b1], State.writeMasked_of_err v m hread, rfl, rfl,
    fun b _ => State.turn_reg_of_others b hothers, fun _ => State.turn_reg_of_others a hothers⟩

theorem State.maskedWriteFails_of_writeFault {s : State} {c : Cause} (a : Addr) (v m : Payload) (hpoly : s.FourBitPoly)
    (h₀ : (s.replyAt 0).isReference) (hfault : (s.replyAt 1).fault = some c) (hothers : (s.replyAt 1).others = []) :
    s.MaskedWriteFails a v m (.transport c) False := by
  obtain ⟨t, hread, ht⟩ := State.readRegister_of_reference a hpoly h₀
  have hreply : (t.setTmp (s.reg a)).reply = s.replyAt 1 := (State.reply_eq_replyAt _).trans (ht.replyAt 0)
  rw [← hreply] at hfault hothers
  have hwrite := State.writeRegister_of_fault a ((s.reg a &&& ~~~m) ||| (v &&& m)) hfault
  rw [← State.writeMasked_of_ok v m hread] at hwrite
  refine ⟨_, [_, _], hwrite, (congrArg (· ++ [_]) ht.trace).trans (List.append_assoc ..), rfl, fun b hb => ?_,
    False.elim⟩
  exact ((State.setReg_reg_ne _ _ hb).trans (State.turn_reg_of_others b hothers)).trans (ht.reg b)

/-- A setter whose shadow's WRMSK fails leaves the primary as it was. -/
theorem SetterRow.write_of_shadow_fails {s : State} {row : SetterRow} {e : Raise} {readFailed : Prop}
    (hne : row.shadow ≠ row.primary) (h : s.MaskedWriteFails row.shadow row.val row.mask e readFailed) :
    ∃ t es, row.write s = .err e t ∧ t.trace = s.trace ++ es ∧ es.count .dly = 0 ∧
      t.reg row.primary = s.reg row.primary ∧ (readFailed → t.reg row.shadow = s.reg row.shadow) := by
  obtain ⟨t, es, hwrite, htrace, hdly, hreg, hclean⟩ := h
  exact ⟨t, es, by rw [SetterRow.write, hwrite, Res.andThen_err], htrace, hdly, hreg _ hne.symm, hclean⟩

/-- A setter whose primary's WRMSK fails has updated the shadow and made one delay. -/
theorem SetterRow.write_of_primary_fails {s : State} {row : SetterRow} {e : Raise} {readFailed : Prop}
    (hne : row.shadow ≠ row.primary) (hpoly : s.FourBitPoly) (h₀ : (s.replyAt 0).isReference)
    (h₁ : (s.replyAt 1).isReference)
    (h : ∀ t : State, t.cfg = s.cfg → (∀ k, t.replyAt k = s.replyAt (2 + k)) →
      t.MaskedWriteFails row.primary row.val row.mask e readFailed) :
    ∃ t es, row.write s = .err e t ∧ t.trace = s.trace ++ es ∧ es.count .dly = 1 ∧
      t.reg row.shadow = row.merged (s.reg row.shadow) ∧ (readFailed → t.reg row.primary = s.reg row.primary) := by
  obtain ⟨t, hshadow, ht⟩ := row.shadowWrite_of_reference hpoly h₀ h₁
  obtain ⟨u, es, hwrite, htrace, hdly, hreg, hclean⟩ := h t.delay ht.cfg ht.replyAt
  refine ⟨u, [_, _, .dly] ++ es, by rw [SetterRow.write_of_shadowWrite hshadow, hwrite, Res.andThen_err],
    htrace.trans ((congrArg (· ++ es) ht.trace).trans (List.append_assoc ..)), ?_, ?_,
    fun hr => (hclean hr).trans (ht.reg_primary hne)⟩
  · rw [List.count_append, hdly]
    rfl
  · rw [hreg _ hne, ht.reg, Memory.read_write_same]

/-- Settles O29, by the transaction that fails: 0 and 1 are the shadow's WRMSK, 2 and 3 the primary's. -/
theorem setterStateAfterATransportFault : Obligations.SetterStateAfterATransportFault := by
  intro s t v sign c k row hrow hl hpoly hk href hfault hothers h
  have hne := SetterRow.shadow_ne_primary hrow
  rw [exec_setter_of_legal s hrow hl] at h
  obtain rfl := Host.Outcome.next.inj h
  interval_cases k
  · obtain ⟨u, es, hwrite, htrace, hdly, hprimary, hshadow⟩ := SetterRow.write_of_shadow_fails hne
      (State.maskedWriteFails_of_readFault (s := s.accept) _ row.val row.mask hfault hothers)
    rw [hwrite]
    exact ⟨rfl, rfl, fun _ => hshadow trivial, by omega, fun _ => hprimary, es, htrace, hdly⟩
  · obtain ⟨u, es, hwrite, htrace, hdly, hprimary, -⟩ := SetterRow.write_of_shadow_fails hne
      (State.maskedWriteFails_of_writeFault (s := s.accept) _ row.val row.mask hpoly (href 0 (by decide)) hfault
        hothers)
    rw [hwrite]
    exact ⟨rfl, rfl, by omega, by omega, fun _ => hprimary, es, htrace, hdly⟩
  · obtain ⟨u, es, hwrite, htrace, hdly, hshadow, hprimary⟩ := SetterRow.write_of_primary_fails (s := s.accept) hne
      hpoly (href 0 (by decide)) (href 1 (by decide)) fun t _ hreply => State.maskedWriteFails_of_readFault _ row.val
        row.mask ((congrArg Reply.fault (hreply 0)).trans hfault)
        ((congrArg Reply.others (hreply 0)).trans hothers)
    rw [hwrite]
    exact ⟨rfl, rfl, by omega, fun _ => hshadow, fun _ => hprimary trivial, es, htrace, hdly⟩
  · obtain ⟨u, es, hwrite, htrace, hdly, hshadow, -⟩ := SetterRow.write_of_primary_fails (s := s.accept) hne
      hpoly (href 0 (by decide)) (href 1 (by decide)) fun t hcfg hreply =>
        State.maskedWriteFails_of_writeFault _ row.val row.mask (State.FourBitPoly.of_cfg_eq hpoly hcfg)
          (hreply 0 ▸ href 2 (by decide)) ((congrArg Reply.fault (hreply 1)).trans hfault)
          ((congrArg Reply.others (hreply 1)).trans hothers)
    rw [hwrite]
    exact ⟨rfl, rfl, by omega, fun _ => hshadow, by omega, es, htrace, hdly⟩

/-- Settles O30, by the read that brings the invalid frame: 0 is the shadow's, 2 the primary's. -/
theorem setterStateAfterAnInvalidFrame : Obligations.SetterStateAfterAnInvalidFrame := by
  intro s t v sign b0 b1 k row hrow hl hpoly hk href hfault hothers hbytes hr h
  have hne := SetterRow.shadow_ne_primary hrow
  rw [exec_setter_of_legal s hrow hl] at h
  obtain rfl := Host.Outcome.next.inj h
  obtain rfl | rfl := hk
  · obtain ⟨u, es, hwrite, htrace, hdly, hprimary, hshadow⟩ := SetterRow.write_of_shadow_fails hne
      (State.maskedWriteFails_of_invalid (s := s.accept) _ row.val row.mask hpoly hfault hothers hbytes hr)
    rw [hwrite]
    exact ⟨rfl, rfl, fun _ => hshadow trivial, by omega, hprimary, es, htrace, hdly⟩
  · obtain ⟨u, es, hwrite, htrace, hdly, hshadow, hprimary⟩ := SetterRow.write_of_primary_fails (s := s.accept) hne
      hpoly (href 0 (by decide)) (href 1 (by decide)) fun t hcfg hreply => State.maskedWriteFails_of_invalid _ row.val
        row.mask (State.FourBitPoly.of_cfg_eq hpoly hcfg) ((congrArg Reply.fault (hreply 0)).trans hfault)
        ((congrArg Reply.others (hreply 0)).trans hothers) ((congrArg Reply.bytes (hreply 0)).trans hbytes)
        (by rw [State.remainder, hcfg]; exact hr)
    rw [hwrite]
    exact ⟨rfl, rfl, by omega, fun _ => hshadow, hprimary trivial, es, htrace, hdly⟩

end Sys2Proof.Machine
end

section
/-! A setter and then a getter on the reference target (42_field_setters.md section 3, 43_field_getters.md section 4):
the bits a masked write puts in and those it leaves, row by row of the spec's tables, and the statements O31, O32 and
O41. -/

namespace Sys2Proof.Machine

/-! ### A setter on the reference target, as a getter sees it -/

/-- What a completed setter leaves for the next operation on the reference target. -/
structure SetterRow.Leaves (row : SetterRow) (s t : State) : Prop where
  status : t.status = some 0#3
  cfg : t.cfg = s.cfg
  bus : t.ReferenceBus
  shadow : t.reg row.shadow = row.merged (s.reg row.shadow)
  primary : t.reg row.primary = row.merged (s.reg row.primary)
  reg : ∀ b, b ≠ row.shadow → b ≠ row.primary → t.reg b = s.reg b

theorem SetterRow.exists_exec_leaves {s : State} {v sign : Word16} {row : SetterRow} (hrow : row ∈ setterRows v sign)
    (hl : row.legal = true) (hbus : s.ReferenceBus) (hpoly : s.FourBitPoly) :
    ∃ t, exec row.instr s = .next t ∧ row.Leaves s t := by
  have hne : row.primary.toNat ≠ row.shadow.toNat := mt BitVec.eq_of_toNat_eq (SetterRow.shadow_ne_primary hrow).symm
  refine ⟨_, setterOnTheReferenceTarget s v sign row hrow hl hbus hpoly, rfl, rfl, ?_, ?_, ?_, fun b hs hp => ?_⟩
  · obtain ⟨hcoming, hrest⟩ := hbus
    exact ⟨fun r hr => hcoming r (List.mem_of_mem_drop hr), hrest⟩
  · exact (Memory.read_write_ne _ _ hne.symm).trans (Memory.read_write_same ..)
  · exact Memory.read_write_same ..
  · exact (Memory.read_write_ne _ _ (mt BitVec.eq_of_toNat_eq hp)).trans
      (Memory.read_write_ne _ _ (mt BitVec.eq_of_toNat_eq hs))

/-- A raw getter on the reference target completes with its row's bits of the register. -/
theorem GetterRow.exists_exec_of_reference {g : GetterRow} (hg : g ∈ getterRows) {s : State} (hbus : s.ReferenceBus)
    (hpoly : s.FourBitPoly) :
    ∃ u, exec g.instr s = .next u ∧ u.status = some 0#3 ∧ u.result = some (g.result (s.reg g.addr)) :=
  ⟨_, (GetterRow.readsThen hg).exec_result_of_reference hpoly (hbus.replyAt 0), rfl, rfl⟩

/-! ### The bits inside and outside the mask (41_regcodec.md rule R103) -/

theorem SetterRow.merged_and_not_mask (row : SetterRow) (old : Payload) :
    row.merged old &&& ~~~row.mask = old &&& ~~~row.mask := by
  refine BitVec.eq_of_getLsbD_eq fun i hi => ?_
  simp only [SetterRow.merged, BitVec.getLsbD_and, BitVec.getLsbD_or, BitVec.getLsbD_not]
  cases row.mask.getLsbD i <;> simp

/-- Under a mask that has no bit in common with the row's, a masked write does not show. -/
theorem SetterRow.merged_and_of_disjoint {row : SetterRow} {m : Payload} (old : Payload) (h : row.mask &&& m = 0#11) :
    row.merged old &&& m = old &&& m := by
  refine BitVec.eq_of_getLsbD_eq fun i hi => ?_
  have hbit := congrArg (BitVec.getLsbD · i) h
  simp only [BitVec.getLsbD_and, BitVec.getLsbD_zero] at hbit
  simp only [SetterRow.merged, BitVec.getLsbD_and, BitVec.getLsbD_or, BitVec.getLsbD_not]
  cases hm : row.mask.getLsbD i
  · simp [hi]
  · rw [hm, Bool.true_and] at hbit
    simp [hbit]

/-- The bits of a field see of a payload only what its mask selects. -/
theorem extractLsb'_and_mask {m : Payload} {start len : Nat} (p : Payload)
    (hm : m.extractLsb' start len = BitVec.allOnes len) :
    (p &&& m).extractLsb' start len = p.extractLsb' start len := by
  rw [BitVec.extractLsb'_and, hm, BitVec.and_allOnes]

/-- A masked write puts the row's value into every run of bits its mask covers. -/
theorem SetterRow.extractLsb'_merged {row : SetterRow} {start len : Nat} (old : Payload)
    (hm : row.mask.extractLsb' start len = BitVec.allOnes len) :
    (row.merged old).extractLsb' start len = row.val.extractLsb' start len := by
  have hval : row.merged old &&& row.mask = row.val &&& row.mask := by
    refine BitVec.eq_of_getLsbD_eq fun i hi => ?_
    simp only [SetterRow.merged, BitVec.getLsbD_and, BitVec.getLsbD_or, BitVec.getLsbD_not]
    cases row.mask.getLsbD i <;> simp
  rw [← extractLsb'_and_mask _ hm, hval, extractLsb'_and_mask _ hm]

/-- An operand that fits the field's width is in the field's bits, at the field's shift. -/
theorem setWidth_extractLsb'_shiftLeft {x : Word16} {start len : Nat} (hx : x.toNat < 2 ^ len)
    (hlen : start + len ≤ 11) : ((x.setWidth 11 <<< start).extractLsb' start len).setWidth 16 = x := by
  have hpow : 2 ^ len ≤ 2 ^ (11 - start) := Nat.pow_le_pow_right Nat.two_pos (by omega)
  have hfit : x.toNat < 2 ^ 11 := (hx.trans_le hpow).trans_le (Nat.pow_le_pow_right Nat.two_pos (by omega))
  have hshift : x.toNat <<< start < 2 ^ 11 := by
    have := Nat.shiftLeft_lt (m := start) (hx.trans_le hpow)
    rwa [show 11 - start + start = 11 by omega] at this
  refine BitVec.eq_of_toNat_eq ?_
  rw [BitVec.toNat_setWidth_of_le (by omega), BitVec.extractLsb'_toNat, BitVec.toNat_shiftLeft, BitVec.toNat_setWidth,
    Nat.mod_eq_of_lt hfit, Nat.mod_eq_of_lt hshift, Nat.shiftLeft_shiftRight, Nat.mod_eq_of_lt hx]

/-- Every mask of the field map is ones from the field's shift up, the field's width long. -/
theorem Field.extractLsb'_mask (f : Field) : f.mask.extractLsb' f.shift f.width = BitVec.allOnes f.width := by
  cases f <;> decide

theorem Field.shift_add_width_le (f : Field) : f.shift + f.width ≤ 11 := by
  cases f <;> decide

/-- A field written as it stands reads back as the operand, by the getter of the same bits of the same register. -/
theorem getter_of_plainField {row : SetterRow} {i : Instr} {x : Word16} (f : Field) (k : Nat)
    (hk : getterRows[k]? = some ⟨i, row.primary, fun p => (p.extractLsb' f.shift f.width).setWidth 16⟩)
    (hmask : row.mask = f.mask) (hval : row.val = x.setWidth 11 <<< f.shift) (hx : x.toNat < 2 ^ f.width) :
    ∃ g ∈ getterRows, i = g.instr ∧ g.addr = row.primary ∧ ∀ old, g.result (row.merged old) = x := by
  refine ⟨_, List.mem_of_getElem? hk, rfl, rfl, fun old => ?_⟩
  change ((row.merged old).extractLsb' f.shift f.width).setWidth 16 = x
  rw [SetterRow.extractLsb'_merged old (hmask ▸ f.extractLsb'_mask), hval,
    setWidth_extractLsb'_shiftLeft hx f.shift_add_width_le]

/-- The enable is stored inverted and read inverted (rules R124 and R153). -/
theorem agc_result_merged {v : Word16} (old : Payload) (h : v ≤ 1#16) :
    (if ((old &&& ~~~0x200#11) ||| ((if v = 1#16 then 0x000#11 else 0x200#11) &&& 0x200#11)).getLsbD 9
      then 0#16 else 1#16) = v := by
  obtain rfl | rfl := eq_zero_or_one_of_le_one h <;> simp

/-- Sign and magnitude joined, as they are read, are the field value written (rules R129 and R133). -/
theorem signMagnitude_eq {sign : Word16} (v : Word16) (h : sign ≤ 1#16) :
    signMagnitude sign v = ((sign <<< 7) ||| v).setWidth 11 <<< 0 := by
  rw [BitVec.shiftLeft_zero, BitVec.setWidth_or]
  obtain rfl | rfl := eq_zero_or_one_of_le_one h
  · exact BitVec.zero_or.symm
  · rfl

theorem toNat_signMagnitude_lt {sign v : Word16} (hsign : sign ≤ 1#16) (hv : v ≤ 127#16) :
    ((sign <<< 7) ||| v).toNat < 2 ^ 8 := by
  have hvlt : v.toNat < 2 ^ 8 := (BitVec.le_def.1 hv).trans_lt (by decide)
  rw [BitVec.toNat_or]
  refine Nat.or_lt_two_pow ?_ hvlt
  obtain rfl | rfl := eq_zero_or_one_of_le_one hsign <;> decide

/-- Each setter's getter, row by row: the register, and the result after the setter. -/
theorem roundTrip_getter {v sign : Word16} {p : SetterRow × (Instr × Instr × Word16)}
    (hp : p ∈ (setterRows v sign).zip (roundTrips v sign)) (hl : p.1.legal = true) :
    p.1.instr = p.2.1 ∧ ∃ g ∈ getterRows, p.2.2.1 = g.instr ∧ g.addr = p.1.primary ∧
      ∀ old, g.result (p.1.merged old) = p.2.2.2 := by
  simp only [setterRows, roundTrips, List.zip_cons_cons, List.zip_nil_left, List.mem_cons, List.not_mem_nil,
    or_false] at hp
  have hle {n : Nat} {w b : Word16} (h : decide (w ≤ b) = true) (hb : b.toNat < 2 ^ n) : w.toNat < 2 ^ n :=
    (BitVec.le_def.1 (of_decide_eq_true h)).trans_lt hb
  rcases hp with rfl | rfl | rfl | rfl | rfl | rfl | rfl | rfl | rfl | rfl | rfl
  · exact ⟨rfl, getter_of_plainField .vdd 0 rfl rfl (BitVec.shiftLeft_zero _).symm (hle hl (by decide))⟩
  · exact ⟨rfl, getter_of_plainField .outmode 1 rfl rfl rfl (hle hl (by decide))⟩
  · exact ⟨rfl, _, List.mem_of_getElem? (i := 2) rfl, rfl, rfl, fun old => agc_result_merged old (of_decide_eq_true hl)⟩
  · exact ⟨rfl, getter_of_plainField .gain 3 rfl rfl (BitVec.shiftLeft_zero _).symm (hle hl (by decide))⟩
  · exact ⟨rfl, getter_of_plainField .boost 4 rfl rfl rfl (hle hl (by decide))⟩
  · exact ⟨rfl, getter_of_plainField .fgain1 5 rfl rfl (BitVec.shiftLeft_zero _).symm (hle hl (by decide))⟩
  · exact ⟨rfl, getter_of_plainField .fgain2 6 rfl rfl (BitVec.shiftLeft_zero _).symm (hle hl (by decide))⟩
  · obtain ⟨hv, hsign⟩ := Bool.and_eq_true_iff.1 hl
    exact ⟨rfl, getter_of_plainField .offs1 7 rfl rfl (signMagnitude_eq v (of_decide_eq_true hsign))
      (toNat_signMagnitude_lt (of_decide_eq_true hsign) (of_decide_eq_true hv))⟩
  · obtain ⟨hv, hsign⟩ := Bool.and_eq_true_iff.1 hl
    exact ⟨rfl, getter_of_plainField .offs2 8 rfl rfl (signMagnitude_eq v (of_decide_eq_true hsign))
      (toNat_signMagnitude_lt (of_decide_eq_true hsign) (of_decide_eq_true hv))⟩
  · exact ⟨rfl, getter_of_plainField .bias 9 rfl rfl (BitVec.shiftLeft_zero _).symm (hle hl (by decide))⟩
  · exact ⟨rfl, getter_of_plainField .subaddr 10 rfl rfl rfl (hle hl (by decide))⟩

/-- Settles O31: the getter selects the setter's merged bits from the primary register. -/
theorem setterThenGetterReturnsTheOperand : Obligations.SetterThenGetterReturnsTheOperand := by
  intro s v sign hbus hpoly p hp hl
  obtain ⟨hinstr, g, hg, hget, haddr, hresult⟩ := roundTrip_getter hp hl
  obtain ⟨t, hset, ht⟩ := SetterRow.exists_exec_leaves (List.of_mem_zip hp).1 hl hbus hpoly
  obtain ⟨u, hexec, hstatus, hres⟩ := GetterRow.exists_exec_of_reference hg ht.bus
    (State.FourBitPoly.of_cfg_eq hpoly ht.cfg)
  rw [haddr, ht.primary, hresult] at hres
  rw [← hinstr, hget]
  exact ⟨rfl, t, u, hset, ht.status, hexec, hstatus, hres, by rw [ht.shadow, p.1.merged_and_not_mask],
    by rw [ht.primary, p.1.merged_and_not_mask]⟩

/-! ### Fields that share a register (42_field_setters.md section 3) -/

/-- Two fields of the map share no shadow and primary, and in one primary register their masks share no bit. -/
theorem fieldMap_disjoint : ∀ i j : Fin 12, i ≠ j → ∀ r ∈ fieldMap[i.val]?, ∀ r' ∈ fieldMap[j.val]?,
    r'.1.primary ≠ r.1.shadow ∧ (r'.1.primary = r.1.primary → r.1.mask &&& r'.1.mask = 0#11) := by
  decide

/-- The rows of the setters stand in the order of the field map. -/
theorem setterRows_fieldMap {v sign : Word16} {row : SetterRow} {i : Nat} (h : (setterRows v sign)[i]? = some row) :
    i < 12 ∧ ∃ r ∈ fieldMap[i]?, row.primary = r.1.primary ∧ row.shadow = r.1.shadow ∧ row.mask = r.1.mask := by
  obtain ⟨hi, rfl⟩ := List.getElem?_eq_some_iff.1 h
  change i < 11 at hi
  refine ⟨by omega, ?_⟩
  interval_cases i <;> exact ⟨_, rfl, rfl, rfl, rfl⟩

/-- A getter's result is a function of the bits its field's mask selects. -/
def Field.Decides (f : Field) (result : Payload → Word16) : Prop :=
  ∀ p q, p &&& f.mask = q &&& f.mask → result p = result q

theorem selectField_congr {p q m : Payload} (h : p &&& m = q &&& m) : selectField p m = selectField q m := by
  rw [selectField, h, selectField]

theorem Field.decides_bits (f : Field) : f.Decides fun p => (p.extractLsb' f.shift f.width).setWidth 16 := by
  intro p q h
  simp only [← f.setWidth_selectField, selectField_congr h]

/-- The rows of the raw getters stand in the order of the field map. -/
theorem getterRows_fieldMap {g : GetterRow} {j : Nat} (h : getterRows[j]? = some g) :
    j < 12 ∧ ∃ r ∈ fieldMap[j]?, g.addr = r.1.primary ∧ r.1.Decides g.result := by
  obtain ⟨hj, rfl⟩ := List.getElem?_eq_some_iff.1 h
  change j < 12 at hj
  refine ⟨hj, ?_⟩
  interval_cases j
  iterate 2 exact ⟨_, rfl, rfl, Field.decides_bits _⟩
  · refine ⟨_, rfl, rfl, fun p q h => ?_⟩
    exact (setWidth_one_sub_selectField_agc p).symm.trans
      ((congrArg (fun x => (1#11 - x).setWidth 16) (selectField_congr h)).trans (setWidth_one_sub_selectField_agc q))
  iterate 8 exact ⟨_, rfl, rfl, Field.decides_bits _⟩
  · refine ⟨_, rfl, rfl, fun p q h => ?_⟩
    have hpq : p = q := (selectField_txfreq p).symm.trans ((selectField_congr h).trans (selectField_txfreq q))
    rw [hpq]

/-- After a setter of another field a getter's register holds what decides the getter's result as before. -/
theorem SetterRow.Leaves.result_eq {v sign : Word16} {row : SetterRow} {g : GetterRow} {i j : Nat} {s t : State}
    (hrow : (setterRows v sign)[i]? = some row) (hg : getterRows[j]? = some g) (hij : i ≠ j) (h : row.Leaves s t) :
    g.result (t.reg g.addr) = g.result (s.reg g.addr) := by
  obtain ⟨hi, r, hr, hprimary, hshadow, hmask⟩ := setterRows_fieldMap hrow
  obtain ⟨hj, r', hr', haddr, hdecides⟩ := getterRows_fieldMap hg
  obtain ⟨hne, hdisjoint⟩ := fieldMap_disjoint ⟨i, hi⟩ ⟨j, hj⟩ (mt (congrArg Fin.val) hij) r hr r' hr'
  rw [← haddr, ← hshadow] at hne
  rw [← haddr, ← hprimary, ← hmask] at hdisjoint
  by_cases hsame : g.addr = row.primary
  · rw [hsame, h.primary]
    exact hdecides _ _ (SetterRow.merged_and_of_disjoint _ (hdisjoint hsame))
  · rw [h.reg _ hne hsame]

/-- Settles O32: out of its domain a setter stores nothing, and in it nothing the other getter looks at. -/
theorem settersLeaveEveryOtherFieldAlone : Obligations.SettersLeaveEveryOtherFieldAlone := by
  intro s t v sign i j row g hbus hpoly hrow hg hij h
  have hrowmem := List.mem_of_getElem? hrow
  have hgmem := List.mem_of_getElem? hg
  obtain ⟨u, hu, hustatus, huresult⟩ := GetterRow.exists_exec_of_reference hgmem hbus hpoly
  cases hl : row.legal with
  | false =>
    rw [exec_setter_of_illegal s hrowmem hl] at h
    obtain rfl := Host.Outcome.next.inj h
    obtain ⟨w, hw, hwstatus, hwresult⟩ := GetterRow.exists_exec_of_reference
      (s := s.outcome s.bus s.regs [] 2#3 none none none) hgmem hbus hpoly
    exact ⟨u, w, _, hu, hw, hustatus, hwstatus, huresult, hwresult⟩
  | true =>
    obtain ⟨t', ht', hleaves⟩ := SetterRow.exists_exec_leaves hrowmem hl hbus hpoly
    obtain rfl := Host.Outcome.next.inj (ht'.symm.trans h)
    obtain ⟨w, hw, hwstatus, hwresult⟩ := GetterRow.exists_exec_of_reference hgmem hleaves.bus
      (State.FourBitPoly.of_cfg_eq hpoly hleaves.cfg)
    rw [hleaves.result_eq hrow hg hij] at hwresult
    exact ⟨u, w, _, hu, hw, hustatus, hwstatus, huresult, hwresult⟩

/-! ### The source's scenarios (43_field_getters.md section 4) -/

/-- A physical getter on the reference target completes with its row's result and quantity. -/
theorem PhysicalRow.exists_exec_of_reference {g : PhysicalRow} (hg : g ∈ physicalRows) {s : State}
    (hbus : s.ReferenceBus) (hpoly : s.FourBitPoly) :
    ∃ u, exec g.instr s = .next u ∧ u.status = some 0#3 ∧ u.result = some (g.result (s.reg g.addr)) ∧
      u.phys = some (rnd s.cfg.physFmt (g.phys s.cfg (s.reg g.addr))) := by
  obtain ⟨t, hexec, ht⟩ := (PhysicalRow.readsThen hg).exec_of_reference hpoly (hbus.replyAt 0)
  refine ⟨_, hexec, rfl, rfl, ?_⟩
  rw [ht.cfg]
  rfl

/-- GETP_GAIN on the reference target completes for a stored code that has an entry in the table. -/
theorem exec_getpGain_of_reference {s : State} {n : Nat} (hbus : s.ReferenceBus) (hpoly : s.FourBitPoly)
    (hn : ((s.reg 0x02#7).extractLsb' 0 7).toNat = n) (h : n < 96) :
    ∃ u, exec .getpGain s = .next u ∧ u.status = some 0#3 ∧ u.result = some (BitVec.ofNat 16 n) ∧
      u.phys = some (rnd s.cfg.physFmt s.cfg.gainTable[n]) := by
  obtain ⟨t, hexec, ht⟩ := getpGain_readsThen.exec_of_reference hpoly (hbus.replyAt 0)
  rw [answerGain_of_lt t ((Field.toNat_selectField .gain _).trans hn) h, ht.cfg] at hexec
  exact ⟨_, hexec, rfl, rfl, rfl⟩

/-- Scenario 1: a gain code set is the code read, with its table entry. -/
theorem setGain_then_getpGain {s : State} (hbus : s.ReferenceBus) (hwf : s.cfg.wf) (hfmt : s.cfg.physFmt = .exact) :
    ∃ t u, exec (.setGain 50#16) s = .next t ∧ exec .getpGain t = .next u ∧
      u.status = some 0#3 ∧ u.result = some 50#16 ∧ u.phys = some (349 / 20) := by
  obtain ⟨hpoly, -, -, h50⟩ := hwf
  obtain ⟨t, hset, ht⟩ := SetterRow.exists_exec_leaves (v := 50#16) (sign := 0#16) (List.mem_of_getElem? (i := 3) rfl)
    (by decide) hbus hpoly
  have hcode : ((t.reg 0x02#7).extractLsb' 0 7).toNat = 50 :=
    congrArg BitVec.toNat ((congrArg _ ht.primary).trans (SetterRow.extractLsb'_merged _ (by decide)))
  obtain ⟨u, hget, hstatus, hresult, hphys⟩ :=
    exec_getpGain_of_reference ht.bus (State.FourBitPoly.of_cfg_eq hpoly ht.cfg) hcode (by decide)
  refine ⟨t, u, hset, hget, hstatus, hresult, hphys.trans ?_⟩
  rw [ht.cfg, hfmt]
  exact congrArg some h50

/-- Scenario 2: the largest negative offset, with the sign bit above the magnitude in the raw code. -/
theorem setOffs1_then_getpOffs1 {s : State} (hbus : s.ReferenceBus) (hpoly : s.FourBitPoly)
    (hfmt : s.cfg.physFmt = .exact) (hstep : s.cfg.offsStep = 3 / 200000) :
    ∃ t u, exec (.setOffs1 1#16 127#16) s = .next t ∧ exec .getpOffs1 t = .next u ∧
      u.status = some 0#3 ∧ u.result = some 0xFF#16 ∧ u.phys = some (-(381 / 200000)) := by
  obtain ⟨t, hset, ht⟩ := SetterRow.exists_exec_leaves (v := 127#16) (sign := 1#16) (List.mem_of_getElem? (i := 7) rfl)
    (by decide) hbus hpoly
  obtain ⟨u, hget, hstatus, hresult, hphys⟩ := PhysicalRow.exists_exec_of_reference (List.mem_of_getElem? (i := 2) rfl)
    ht.bus (State.FourBitPoly.of_cfg_eq hpoly ht.cfg)
  have hcode : (t.reg 0x04#7).extractLsb' 0 8 = 0xFF#8 :=
    (congrArg _ ht.primary).trans (SetterRow.extractLsb'_merged _ (by decide))
  have hsign : (t.reg 0x04#7).extractLsb' 7 1 = 1#1 :=
    (congrArg _ ht.primary).trans (SetterRow.extractLsb'_merged _ (by decide))
  have hmag : (t.reg 0x04#7).extractLsb' 0 7 = 127#7 :=
    (congrArg _ ht.primary).trans (SetterRow.extractLsb'_merged _ (by decide))
  have hoffs : offsetFraction s.cfg (t.reg 0x04#7) = -(381 / 200000) := by
    rw [offsetFraction, BitVec.getLsbD_eq_extractLsb', hsign, hmag, hstep]
    norm_num
  refine ⟨t, u, hset, hget, hstatus, hresult.trans ?_, hphys.trans ?_⟩
  · exact congrArg (fun c : BitVec 8 => some (c.setWidth 16)) hcode
  · rw [ht.cfg, hfmt]
    exact congrArg some hoffs

/-- Scenario 3: the largest bias code. -/
theorem setBias_then_getpBias {s : State} (hbus : s.ReferenceBus) (hpoly : s.FourBitPoly)
    (hfmt : s.cfg.physFmt = .exact) (hunit : s.cfg.biasUnit = 1 / 2) :
    ∃ t u, exec (.setBias 255#16) s = .next t ∧ exec .getpBias t = .next u ∧
      u.status = some 0#3 ∧ u.result = some 0xFF#16 ∧ u.phys = some 2016 := by
  obtain ⟨t, hset, ht⟩ := SetterRow.exists_exec_leaves (v := 255#16) (sign := 0#16) (List.mem_of_getElem? (i := 9) rfl)
    (by decide) hbus hpoly
  obtain ⟨u, hget, hstatus, hresult, hphys⟩ := PhysicalRow.exists_exec_of_reference (List.mem_of_getElem? (i := 4) rfl)
    ht.bus (State.FourBitPoly.of_cfg_eq hpoly ht.cfg)
  have hcode : (t.reg 0x07#7).extractLsb' 0 8 = 0xFF#8 :=
    (congrArg _ ht.primary).trans (SetterRow.extractLsb'_merged _ (by decide))
  have hexp : (t.reg 0x07#7).extractLsb' 6 2 = 3#2 :=
    (congrArg _ ht.primary).trans (SetterRow.extractLsb'_merged _ (by decide))
  have hbase : (t.reg 0x07#7).extractLsb' 0 6 = 63#6 :=
    (congrArg _ ht.primary).trans (SetterRow.extractLsb'_merged _ (by decide))
  have hbias : (2 : Rat) ^ (2 * ((t.reg 0x07#7).extractLsb' 6 2).toNat) *
      (((t.reg 0x07#7).extractLsb' 0 6).toNat : Rat) * s.cfg.biasUnit = 2016 := by
    rw [hexp, hbase, hunit]
    norm_num
  refine ⟨t, u, hset, hget, hstatus, hresult.trans ?_, hphys.trans ?_⟩
  · exact congrArg (fun c : BitVec 8 => some (c.setWidth 16)) hcode
  · rw [ht.cfg, hfmt]
    exact congrArg some hbias

/-- Scenario 4: a stored TX frequency code. -/
theorem getpTxfreq_of_stored {s : State} (hbus : s.ReferenceBus) (hpoly : s.FourBitPoly)
    (hfmt : s.cfg.physFmt = .exact) (hstep : s.cfg.txfStep = 20000) (hreg : s.reg 0x6E#7 = 0x3E8#11) :
    ∃ u, exec .getpTxfreq s = .next u ∧
      u.status = some 0#3 ∧ u.result = some 1000#16 ∧ u.phys = some 20000000 := by
  obtain ⟨u, hget, hstatus, hresult, hphys⟩ := PhysicalRow.exists_exec_of_reference (List.mem_of_getElem? (i := 5) rfl)
    hbus hpoly
  have htxf : ((s.reg 0x6E#7).toNat : Rat) * s.cfg.txfStep = 20000000 := by
    rw [hreg, hstep]
    norm_num
  refine ⟨u, hget, hstatus, hresult.trans ?_, hphys.trans ?_⟩
  · exact congrArg (fun p : Payload => some (p.setWidth 16)) hreg
  · rw [hfmt]
    exact congrArg some htxf

/-- Settles O41: one scenario after the other. -/
theorem scenariosOneToFourOfTheSource : Obligations.ScenariosOneToFourOfTheSource := by
  intro s hbus hwf hfmt hoffs hbias htxf
  have hpoly : s.FourBitPoly := hwf.1
  exact ⟨setGain_then_getpGain hbus hwf hfmt, setOffs1_then_getpOffs1 hbus hpoly hfmt hoffs,
    setBias_then_getpBias hbus hpoly hfmt hbias, getpTxfreq_of_stored hbus hpoly hfmt htxf⟩

end Sys2Proof.Machine
end

section
/-! The conversions to physical units and the effective gain (43_field_getters.md sections 3 and 5), and the statements
O39 and O40. -/

namespace Sys2Proof.Machine

/-! ### Fine gain, offset and TX frequency (rule R171) -/

theorem fgain_default {cfg : Params} (h : cfg.fgainStep = 1 / 800) (code : Nat) :
    fgain cfg code = (800 + (code : Rat)) / 800 := by
  rw [fgain, h]
  ring

theorem offs_default_zero {cfg : Params} (h : cfg.offsStep = 3 / 200000) (mag : Nat) :
    offs cfg 0 mag = 3 * (mag : Rat) / 200000 := by
  rw [offs, h, Nat.cast_zero]
  ring

theorem offs_default_one {cfg : Params} (h : cfg.offsStep = 3 / 200000) (mag : Nat) :
    offs cfg 1 mag = -(3 * (mag : Rat) / 200000) := by
  rw [offs, h, Nat.cast_one]
  ring

/-- Fine gain runs from 1 to 927/800 over its codes. -/
theorem fgain_default_bounds {cfg : Params} (h : cfg.fgainStep = 1 / 800) {code : Nat} (hcode : code ≤ 127) :
    1 ≤ fgain cfg code ∧ fgain cfg code ≤ 927 / 800 := by
  have hle : (code : Rat) ≤ 127 := by exact_mod_cast hcode
  have hnonneg : (0 : Rat) ≤ code := Nat.cast_nonneg code
  rw [fgain_default h]
  constructor <;> linarith

/-- The offset runs from -381/200000 to 381/200000 over its magnitudes. -/
theorem offs_default_bounds {cfg : Params} (h : cfg.offsStep = 3 / 200000) {mag : Nat} (hmag : mag ≤ 127) :
    offs cfg 0 mag ≤ 381 / 200000 ∧ -(381 / 200000) ≤ offs cfg 1 mag := by
  have hle : (mag : Rat) ≤ 127 := by exact_mod_cast hmag
  rw [offs_default_zero h, offs_default_one h]
  constructor <;> linarith

theorem txf_default_bounds {cfg : Params} (h : cfg.txfStep = 20000) {code : Nat} (hcode : code ≤ 2047) :
    0 ≤ txf cfg code ∧ txf cfg code ≤ 40940000 := by
  have hle : (code : Rat) ≤ 2047 := by exact_mod_cast hcode
  have hnonneg : (0 : Rat) ≤ code := Nat.cast_nonneg code
  rw [txf, h]
  constructor <;> linarith

/-! ### The bias (rule R171) -/

/-- The bias in its unit: the base scaled by a power of four. -/
theorem bias_eq_cast {cfg : Params} (h : cfg.biasUnit = 1 / 2) (code : Nat) :
    bias cfg code = ((4 ^ (code >>> 6) * (code &&& 0x3F) : Nat) : Rat) / 2 := by
  rw [bias, h, Nat.cast_mul]
  ring

theorem biasUnits_le {code : Nat} (h : code ≤ 255) : 4 ^ (code >>> 6) * (code &&& 0x3F) ≤ 4 ^ 3 * 63 := by
  have hexp : code >>> 6 ≤ 3 := by
    rw [Nat.shiftRight_eq_div_pow]
    omega
  exact Nat.mul_le_mul (Nat.pow_le_pow_right (by decide) hexp) Nat.and_le_right

theorem bias_default_bounds {cfg : Params} (h : cfg.biasUnit = 1 / 2) {code : Nat} (hcode : code ≤ 255) :
    0 ≤ bias cfg code ∧ bias cfg code ≤ 2016 := by
  have hle : ((4 ^ (code >>> 6) * (code &&& 0x3F) : Nat) : Rat) ≤ ((4 ^ 3 * 63 : Nat) : Rat) :=
    Nat.cast_le.2 (biasUnits_le hcode)
  rw [bias_eq_cast h]
  refine ⟨by positivity, ?_⟩
  norm_num at hle ⊢
  linarith

theorem bias_of_units {cfg : Params} (h : cfg.biasUnit = 1 / 2) {code n : Nat}
    (hn : 4 ^ (code >>> 6) * (code &&& 0x3F) = n * 2) : bias cfg code = n := by
  rw [bias_eq_cast h, hn, Nat.cast_mul]
  exact mul_div_cancel_right₀ _ two_ne_zero

/-- Settles O39: each conversion by its closed form as a rational function of the code. -/
theorem conversionsWithTheDefaultConstants : Obligations.ConversionsWithTheDefaultConstants := by
  intro cfg hfgain hoffs hbias htxf
  refine ⟨fun code hcode => ⟨fgain_default hfgain code, fgain_default_bounds hfgain hcode⟩,
    fun mag hmag => ⟨offs_default_zero hoffs mag, offs_default_one hoffs mag, offs_default_bounds hoffs hmag⟩,
    fun code hcode => bias_default_bounds hbias hcode, fun code hcode => txf_default_bounds htxf hcode,
    bias_of_units (n := 2016) hbias rfl, bias_of_units (n := 2) hbias rfl, bias_of_units (n := 2) hbias rfl, ?_⟩
  rw [txf, htxf]
  norm_num

/-! ### The effective gain (rule R172) -/

theorem effgain_zero (cfg : Params) (i : Fin 96) : effgain cfg i 0 = cfg.gainTable[i] := by
  simp [effgain, gain]

theorem effgain_one (cfg : Params) (i : Fin 96) : effgain cfg i 1 = cfg.gainTable[i] * 2 := by
  rw [effgain, gain]
  norm_num

/-- A table that grows at each step grows from any entry to any later one. -/
theorem gainTable_lt_of_lt {cfg : Params} (h : ∀ i : Fin 95, cfg.gainTable[i.val] < cfg.gainTable[i.val + 1])
    {i j : Nat} (hij : i < j) (hj : j < 96) : cfg.gainTable[i] < cfg.gainTable[j] := by
  induction j with
  | zero => omega
  | succ j ih =>
    have hstep := h ⟨j, by omega⟩
    rcases (Nat.lt_succ_iff.1 hij).eq_or_lt with rfl | hlt
    · exact hstep
    · exact (ih hlt (by omega)).trans hstep

/-- Settles O40: growth of the table from step to step carries over to any two entries. -/
theorem effectiveGainOfAWellFormedTable : Obligations.EffectiveGainOfAWellFormedTable := by
  intro cfg hwf
  obtain ⟨-, -, hgrows, h50⟩ := hwf
  have h50' : cfg.gainTable[(50 : Fin 96)] = 349 / 20 := h50
  refine ⟨fun i => ⟨effgain_zero cfg i, effgain_one cfg i⟩, (effgain_zero cfg 50).trans h50', ?_, fun i j b hij => ?_⟩
  · rw [effgain_one, h50']
    norm_num
  · refine mul_lt_mul_of_pos_right (gainTable_lt_of_lt hgrows hij j.isLt) ?_
    positivity

end Sys2Proof.Machine
end
